-- ==== Sys2Proof/Word.lean ====
section
/-! DEFINITION. The value types of `00_scope.md` rule R9: Byte, Col, Block, Schedule, the 32-bit payload lane of
`20_memory.md` rule R52 and the command word of `30_encoding.md` rule R71. Types only: every conversion between them
(byte order, lane order, matrix indexing) is in `Machine/Layout.lean`. -/

namespace Sys2Proof

/-- A byte: an unsigned 8-bit value, and the element of GF(2^8) whose coefficient of x^i is bit i (R8). -/
abbrev Byte := BitVec 8

/-- The unit in which a payload travels: one matrix column as a 32-bit value (R52). -/
abbrev Lane := BitVec 32

/-- A command word: `op` in bits 31:24, `imm` in bits 23:0 (R71). -/
abbrev CommandWord := BitVec 32

/-- One matrix column, also called a word: the four bytes `w[0..3]`, `w[r]` being the byte of row r (R9). -/
structure Col where
  w0 : Byte
  w1 : Byte
  w2 : Byte
  w3 : Byte
  deriving DecidableEq, Repr, Inhabited

/-- Sixteen bytes as a 4×4 matrix of four columns, column 0 first (R9, R53).
State, Key, RoundKey, IV and the counter blocks all have this type. -/
structure Block where
  c0 : Col
  c1 : Col
  c2 : Col
  c3 : Col
  deriving DecidableEq, Repr, Inhabited

/-- A key schedule: 44 columns, eleven round keys of four columns each (R9, R23). -/
abbrev Schedule := Vector Col 44

/-- A matrix of 4 rows and any number of columns, as a sequence of columns (R9). -/
abbrev Matrix := List Col

end Sys2Proof
end

