-- ==== Sys2Proof/Config.lean ====
section
/-! DEFINITION. What the specification leaves free. Every size of the CORE is fixed (`00_scope.md` rules R6 and R7), so no
field stands here for an implementation's choice. The one open matter that a run meets is the contents of the transient
registers between two commands, "unspecified" in `10_state.md` rules R20 and R28: they are the opaque constants below,
applied to a counter of the state, so that nothing can be proved about them (assumption log 3).
TRACE_PAD, the one OPEN parameter (R7, R229), is an argument of the rendering function in `Machine/TraceText.lean`. -/

namespace Sys2Proof.Config

/-- Free 128-bit values: what STATE, CTRBLK and KSTREAM hold between commands (R28). No body: nothing fixes them. -/
opaque freeBlock : Nat → Block

/-- Free 32-bit column values: what TMPW holds between commands (R28). No body. -/
opaque freeCol : Nat → Col

/-- Free 2-bit values: what PHASE holds between commands (R28). No body. -/
opaque freePhase : Nat → BitVec 2

/-- Free 4-bit values: what ROUND holds between commands (R28). No body. -/
opaque freeRound : Nat → BitVec 4

/-- Free 22-bit values: what BLK holds between commands (R28). No body. -/
opaque freeBlk : Nat → BitVec 22

end Sys2Proof.Config
end

