-- ==== Sys2Proof/Machine/Layout.lean ====
section
/-! DEFINITION. How bytes, columns and blocks lie in one another: the lane order of `20_memory.md` rule R52, the
column-major matrix of R53, the big-endian integer of R54, the block split of R56, `46_modes.md` rule R193, and the columns
of the key schedule (R24, R59). -/

namespace Sys2Proof

/-! ## Columns -/

/-- The 32-bit value of a column: row 0 in bits 31:24, row 3 in bits 7:0 (R52). -/
def Col.toLane (w : Col) : Lane := (w.w0 ++ w.w1) ++ (w.w2 ++ w.w3)

/-- The column a 32-bit lane carries (R52). -/
def Col.ofLane (v : Lane) : Col :=
  ⟨v.extractLsb' 24 8, v.extractLsb' 16 8, v.extractLsb' 8 8, v.extractLsb' 0 8⟩

/-- The byte of row r (R9). -/
def Col.row (w : Col) (r : Fin 4) : Byte :=
  match r with
  | 0 => w.w0
  | 1 => w.w1
  | 2 => w.w2
  | 3 => w.w3

/-- The column with the given bytes, row by row. -/
def Col.ofFn (f : Fin 4 → Byte) : Col := ⟨f 0, f 1, f 2, f 3⟩

/-- Byte-wise exclusive-or of two columns (R103 on one column, R153). -/
def Col.xor (a b : Col) : Col := ⟨a.w0 ^^^ b.w0, a.w1 ^^^ b.w1, a.w2 ^^^ b.w2, a.w3 ^^^ b.w3⟩

/-! ## Blocks -/

/-- Column c of a block. -/
def Block.col (b : Block) (c : Fin 4) : Col :=
  match c with
  | 0 => b.c0
  | 1 => b.c1
  | 2 => b.c2
  | 3 => b.c3

/-- Matrix element `S[r][c]` (R53). -/
def Block.get (b : Block) (r c : Fin 4) : Byte := (b.col c).row r

/-- The block with the given matrix elements, row index first (R53). -/
def Block.ofFn (f : Fin 4 → Fin 4 → Byte) : Block :=
  ⟨Col.ofFn fun r => f r 0, Col.ofFn fun r => f r 1, Col.ofFn fun r => f r 2, Col.ofFn fun r => f r 3⟩

/-- Byte `b[k] = S[k mod 4][k div 4]` (R53). -/
def Block.byte (b : Block) (k : Fin 16) : Byte :=
  b.get ⟨k.val % 4, Nat.mod_lt _ (by decide)⟩ ⟨k.val / 4, by omega⟩

/-- The same function applied to each of the sixteen bytes. -/
def Block.map (f : Byte → Byte) (b : Block) : Block := Block.ofFn fun r c => f (b.get r c)

/-- The four lanes of a block, column 0 first (R53). -/
def Block.lanes (b : Block) : List Lane := [b.c0.toLane, b.c1.toLane, b.c2.toLane, b.c3.toLane]

/-- The block that four lanes carry, column 0 first (R53, R56). -/
def Block.ofLanes (l0 l1 l2 l3 : Lane) : Block := ⟨Col.ofLane l0, Col.ofLane l1, Col.ofLane l2, Col.ofLane l3⟩

/-- A block as a 128-bit vector, b[0] most significant (R54). -/
def Block.toBits (b : Block) : BitVec 128 := (b.c0.toLane ++ b.c1.toLane) ++ (b.c2.toLane ++ b.c3.toLane)

/-- The block of a 128-bit vector (R54). -/
def Block.ofBits (v : BitVec 128) : Block :=
  Block.ofLanes (v.extractLsb' 96 32) (v.extractLsb' 64 32) (v.extractLsb' 32 32) (v.extractLsb' 0 32)

/-- `int(b)`: the block read as a big-endian integer (R54). -/
def Block.int (b : Block) : Nat := b.toBits.toNat

/-- `blk(v)` for v below 2^128, and `blk(v mod 2^128)` for any v (R54). -/
def Block.blk (v : Nat) : Block := Block.ofBits (BitVec.ofNat 128 v)

/-- The all-zero block. -/
def Block.zero : Block := Block.ofBits 0

/-! ## Payloads -/

/-- The blocks of a payload: block j is lanes 4j to 4j+3 (R56, R193). Lanes after the last whole block give none; no command
gets so far with such a payload (R57). -/
def blocksOf : List Lane → List Block
  | l0 :: l1 :: l2 :: l3 :: rest => Block.ofLanes l0 l1 l2 l3 :: blocksOf rest
  | _ => []

/-- Blocks put back together in block order (R193). -/
def lanesOf (bs : List Block) : List Lane := bs.flatMap Block.lanes

/-- A payload as a 4-row matrix (R56). -/
def matrixOf (ls : List Lane) : Matrix := ls.map Col.ofLane

/-- A matrix as payload lanes (R56). -/
def lanesOfMatrix (m : Matrix) : List Lane := m.map Col.toLane

/-! ## Key-schedule columns -/

/-- `KS[i]` (R59). The index is below 44 wherever a rule reads a column (R24, R59). -/
def ksCol (ks : Schedule) (i : Nat) : Col := if h : i < 44 then ks[i] else default

/-- `RoundKey(ks, r)`: columns 4r to 4r+3 (R24). -/
def roundKey (ks : Schedule) (r : Nat) : Block :=
  ⟨ksCol ks (4 * r), ksCol ks (4 * r + 1), ksCol ks (4 * r + 2), ksCol ks (4 * r + 3)⟩

end Sys2Proof
end

