-- ==== Sys2Proof/Syntax.lean ====
section
/-! DEFINITION. The 29 commands of `30_encoding.md` rule R74, one constructor per row of `spec/opcode_table.json`, with the
operands their words carry (R72, R73). Payload columns are data that follow the word (R71) and are no part of the term. -/

namespace Sys2Proof

/-- A command as its word gives it. Fields keep the width of their immediate sub-field (R72). -/
inductive Instr where
  /-- ADD a, b: GF(2^8) addition (R104). -/
  | add (a b : Byte)
  /-- XTIME a: multiplication by x (R105). -/
  | xtime (a : Byte)
  /-- MUL a, b: GF(2^8) product (R106). -/
  | mul (a b : Byte)
  /-- MADD na, nb : A B: addition of two matrices (R107). -/
  | madd (na nb : BitVec 12)
  /-- SBOX a: S-box lookup (R123). -/
  | sbox (a : Byte)
  /-- ISBOX a: inverse S-box lookup (R124). -/
  | isbox (a : Byte)
  /-- SUBB : s: SubBytes (R140). -/
  | subb
  /-- ISUBB : s: InvSubBytes (R141). -/
  | isubb
  /-- SHROW : s: ShiftRows (R142). -/
  | shrow
  /-- ISHROW : s: InvShiftRows (R143). -/
  | ishrow
  /-- MIXC : s: MixColumns (R144). -/
  | mixc
  /-- IMIXC : s: InvMixColumns (R145). -/
  | imixc
  /-- ARK : s k: AddRoundKey (R146). -/
  | ark
  /-- LDKEY : k: load the key and build the key schedule (R156). -/
  | ldkey
  /-- RDRK r: read round key r; r = 11 to 15 is no legal word (R157, R75). -/
  | rdrk (r : BitVec 4)
  /-- ROTW : w: RotWord (R158). -/
  | rotw
  /-- SUBW : w: SubWord (R159). -/
  | subw
  /-- CIPH : x: forward cipher of one block (R174). -/
  | ciph
  /-- ICIPH : x: inverse cipher of one block (R175). -/
  | iciph
  /-- SETMODE alg, mode: select algorithm and mode (R190). -/
  | setmode (alg mode : Byte)
  /-- SETIV : v: load the IV (R191). -/
  | setiv
  /-- CTRB idx: the counter block IV + idx; idx is read as two's complement (R195, R73). -/
  | ctrb (idx : BitVec 24)
  /-- ECBE ncols : DIN: ECB encryption (R200). -/
  | ecbe (ncols : BitVec 24)
  /-- ECBD ncols : DIN: ECB decryption (R201). -/
  | ecbd (ncols : BitVec 24)
  /-- CTRX ncols : DIN: CTR transform (R202). -/
  | ctrx (ncols : BitVec 24)
  /-- ENC ncols : DIN: top-level encrypt (R204). -/
  | enc (ncols : BitVec 24)
  /-- DEC ncols : DIN: top-level decrypt (R205). -/
  | dec (ncols : BitVec 24)
  /-- TRON: enable tracing (R220). -/
  | tron
  /-- TROFF: disable tracing (R221). -/
  | troff
  deriving DecidableEq, Repr

/-- What the host presents at the command port: a command word and its input payload (R70). -/
structure Command where
  word : CommandWord
  din  : List Lane
  deriving DecidableEq, Repr

end Sys2Proof
end

