-- ==== Sys2Proof/Machine/State.lean ====
section
/-! DEFINITION. The state of the CORE, `10_state.md` rules R20 to R39, and of its command port, `30_encoding.md` rules R70
and R77, as plain data; the reasons a step can stop; and the state after reset (R34, R271). -/

namespace Sys2Proof.Machine

/-! ## Control values -/

/-- MODE: three legal values (R25); code 3 is never held, so it has no constructor. -/
inductive Mode where
  /-- NONE: no mode selected since reset. -/
  | noMode
  /-- Electronic Codebook. -/
  | ecb
  /-- Counter. -/
  | ctr
  deriving DecidableEq, Repr, Inhabited

/-- PHASE: the four values of the pipeline's state machine (R29). -/
inductive Phase where
  | initial
  | round
  | finalRound
  | output
  deriving DecidableEq, Repr, Inhabited

/-! ## Responses -/

/-- The error kinds of `60_exceptions.md` rule R241. -/
inductive ErrorKind where
  /-- A command that reads KS while no key is loaded (R242). -/
  | uninitializedKey
  /-- A column count that is zero or no multiple of 4 (R243). -/
  | invalidBlockShape
  /-- SETMODE with an unknown mode code; ENC or DEC of several blocks with MODE = NONE (R244). -/
  | unsupportedMode
  /-- SETMODE with an unknown algorithm code (R245). -/
  | malformedTransformationString
  /-- MADD with na ≠ nb (R246). -/
  | dimensionMismatch
  /-- CTRB with a negative index (R247). -/
  | negativeCounterIndex
  /-- A word that is no legal encoding (R248). -/
  | illegalCommand
  deriving DecidableEq, Repr

/-- The status of a response: success or one of the seven error kinds; no other value is produced (R241). -/
inductive Status where
  | ok
  | error (kind : ErrorKind)
  deriving DecidableEq, Repr

/-- The fourteen trace labels of `47_trace.md` rule R222. -/
inductive Label where
  | input | kSch | start | sBox | sRow | mCol | output
  | iinput | ikSch | istart | isRow | isBox | ikAdd | ioutput
  deriving DecidableEq, Repr

/-- A trace record (R222). -/
structure TraceRecord where
  round : BitVec 4
  label : Label
  value : Block
  deriving DecidableEq, Repr

/-- The response to a command (R77). -/
structure Response where
  status : Status
  rb     : Byte
  dout   : List Lane
  trace  : List TraceRecord
  deriving DecidableEq, Repr

/-! ## Registers -/

/-- The registers KEY and KS, which LDKEY writes together (R21, R23, R37). -/
structure KeyRegs where
  key : Block
  ks  : Schedule
  deriving DecidableEq, Repr

/-- The persistent registers: the record of R39. `key = none` is KEY_VALID = 0, `key = some k` is KEY_VALID = 1. -/
structure CoreState where
  /-- KEY_VALID, KEY and KS: no key, or a key and its schedule (R22 asks for the absence of a value). -/
  key     : Option KeyRegs
  /-- MODE (R25). -/
  mode    : Mode
  /-- IV (R26). -/
  iv      : Block
  /-- TRACE_EN (R27). -/
  traceEn : Bool
  deriving DecidableEq, Repr

/-- The transient registers: working registers of one command (R20, R28, R29). -/
structure Working where
  /-- STATE, the working State of a pipeline. -/
  state   : Block
  /-- PHASE, the pipeline's phase. -/
  phase   : Phase
  /-- ROUND, 0 to 10. -/
  round   : BitVec 4
  /-- BLK, the block index of the mode sequencers. -/
  blk     : BitVec 22
  /-- CTRBLK, the counter block of the current CTR block. -/
  ctrblk  : Block
  /-- KSTREAM, the keystream block of the current CTR block. -/
  kstream : Block
  /-- TMPW, the `tmp` of the key-schedule generator. -/
  tmpw    : Col
  deriving DecidableEq, Repr

/-! ## The port and the whole state -/

/-- What the host does to the CORE between steps: it presents a command (R70) or it resets the CORE (R270). -/
inductive HostEvent where
  | command (c : Command)
  | reset
  deriving DecidableEq, Repr

/-- The state of a step: the CORE's registers, and the command port as the host uses it (R13, R70, R77). -/
structure State where
  /-- The persistent registers (R20, R39). -/
  core      : CoreState
  /-- The transient registers (R20, R28). -/
  work      : Working
  /-- The model's own counter, from which the free values of the transient registers are taken (assumption log 3). -/
  freeCount : Nat
  /-- What the host will do, in order: the rest of the run's list (R13; assumption log 2). -/
  pending   : List HostEvent
  /-- DIN, the input payload of the command being executed (R50, R56). -/
  din       : List Lane
  /-- The responses given so far, oldest first: what the host has read (R13, R286). The CORE never reads them (R35). -/
  responses : List Response
  deriving DecidableEq, Repr

/-! ## How a step can stop -/

/-- Reasons to stop with a fault: none. Every abnormal event of this hardware is an error STATUS of a response, after which
the CORE goes on (R240, R250), and no command reaches a stuck state (R285). Nothing raises a fault; safe. -/
inductive Fault where
  deriving DecidableEq, Repr

/-- Reasons to refuse. -/
inductive Refusal where
  /-- Raised by `exec`'s arm of an instruction that has no meaning yet. Safe. No arm of this model raises it. -/
  | notModelled (mnemonic : String)
  /-- Raised where a command's payload has not the length its word announces: "this spec gives no meaning to" such a
  command and asks the model to refuse it at its boundary (R76). Safe: a real CORE waits or goes on. -/
  | payloadLength
  deriving DecidableEq, Repr

/-- What a step answers. -/
abbrev Answer := Host.Outcome State Fault Refusal

/-! ## Reset -/

/-- The persistent registers after reset (R34, R39, R271). -/
def CoreState.reset : CoreState := { key := none, mode := .noMode, iv := Block.zero, traceEn := false }

/-- The transient registers after reset: the specification leaves them "unspecified" (R271).
DESIGN CHOICE (assumption log 4; unsafe): zero, phase Initial. Every command writes them before it reads them. -/
def Working.reset : Working :=
  { state := Block.zero, phase := .initial, round := 0, blk := 0, ctrblk := Block.zero, kstream := Block.zero,
    tmpw := default }

/-- The machine right after reset, with nothing presented by the host and no response given (R271, R274). -/
def State.reset : State :=
  { core := CoreState.reset, work := Working.reset, freeCount := 0, pending := [], din := [], responses := [] }

end Sys2Proof.Machine
end

