-- ==== Sys2Proof/Machine/Flags.lean ====
section
/-! DEFINITION. The two flags of the CORE, KEY_VALID and TRACE_EN (`10_state.md` rules R22 and R27), each with its one
reader and its writers, and the code numbers of MODE, PHASE, the status field and the trace labels. No command computes a
flag from a result: the hardware has no condition codes. -/

namespace Sys2Proof.Machine

/-! ## Flags -/

/-- KEY_VALID: 1 when a key has been loaded since reset (R22). -/
def CoreState.keyValid (c : CoreState) : Bool := c.key.isSome

/-- The write of LDKEY: KEY, KS and KEY_VALID together (R37, R156). -/
def CoreState.loadKey (c : CoreState) (key : Block) (ks : Schedule) : CoreState :=
  { c with key := some { key := key, ks := ks } }

/-- The write of TRACE_EN by TRON and TROFF (R27). -/
def CoreState.setTraceEn (c : CoreState) (b : Bool) : CoreState := { c with traceEn := b }

/-- The write of MODE by SETMODE (R25). -/
def CoreState.setMode (c : CoreState) (m : Mode) : CoreState := { c with mode := m }

/-- The write of IV by SETIV (R26). -/
def CoreState.setIv (c : CoreState) (v : Block) : CoreState := { c with iv := v }

/-! ## Code numbers -/

/-- MODE[1:0] (R25). -/
def Mode.code : Mode → BitVec 2
  | .noMode => 0
  | .ecb => 1
  | .ctr => 2

/-- The mode that SETMODE's 8-bit mode code selects (R190): 0x01 ECB, 0x02 CTR, any other not supported. -/
def Mode.ofSelector (v : Byte) : Option Mode :=
  if v = 0x01 then some .ecb else if v = 0x02 then some .ctr else none

/-- PHASE as two bits, in the order of R29's list. DESIGN CHOICE (assumption log 3): the specification gives PHASE no
codes; the numbers serve only to name a free value of the register. -/
def Phase.ofBits (v : BitVec 2) : Phase :=
  if v = 0 then .initial else if v = 1 then .round else if v = 2 then .finalRound else .output

/-- The status code of an error kind (R241). -/
def ErrorKind.code : ErrorKind → Byte
  | .uninitializedKey => 0x01
  | .invalidBlockShape => 0x02
  | .unsupportedMode => 0x03
  | .malformedTransformationString => 0x04
  | .dimensionMismatch => 0x05
  | .negativeCounterIndex => 0x06
  | .illegalCommand => 0xFF

/-- The 8 bits of `status` (R77, R241). -/
def Status.code : Status → Byte
  | .ok => 0x00
  | .error k => k.code

/-- The label codes of R222. -/
def Label.code : Label → BitVec 4
  | .input => 0x0
  | .kSch => 0x1
  | .start => 0x2
  | .sBox => 0x3
  | .sRow => 0x4
  | .mCol => 0x5
  | .output => 0x6
  | .iinput => 0x8
  | .ikSch => 0x9
  | .istart => 0xA
  | .isRow => 0xB
  | .isBox => 0xC
  | .ikAdd => 0xD
  | .ioutput => 0xE

end Sys2Proof.Machine
end

