-- ==== Sys2Proof/Machine/Ops.lean ====
section
/-! DEFINITION. The operations every command shares: ending with a response (`30_encoding.md` rule R77), ending with an
error (`60_exceptions.md` rules R240 and R250: this hardware's one kind of exception), the checks of
`60_exceptions.md` rule R249, accepting a command (R70) and the reset event (`70_reset_and_hazards.md` rule R270). -/

namespace Sys2Proof.Machine

/-! ## The end of a command -/

/-- Free contents of the transient registers, the n-th of them: "their value between commands is unspecified" (R28). -/
def Working.free (n : Nat) : Working :=
  { state := Config.freeBlock (3 * n)
    phase := Phase.ofBits (Config.freePhase n)
    round := Config.freeRound n
    blk := Config.freeBlk n
    ctrblk := Config.freeBlock (3 * n + 1)
    kstream := Config.freeBlock (3 * n + 2)
    tmpw := Config.freeCol n }

/-- What the end of any command does: the response is given, DIN is used up, and the transient registers are dead (R28,
R77). No persistent register is touched here. -/
def State.finish (s : State) (r : Response) : State :=
  { s with work := Working.free s.freeCount, freeCount := s.freeCount + 1, din := [], responses := s.responses ++ [r] }

/-- `respond(...)`: success, with the response fields named; those not named are 0x00 or empty (R77). -/
def respond (rb : Byte) (dout : List Lane) (trace : List TraceRecord) (s : State) : Answer :=
  .next (s.finish { status := .ok, rb := rb, dout := dout, trace := trace })

/-- `raise <Kind>`: TAKING AN EXCEPTION. The command ends with the kind's status, rb = 0x00, no output and no trace; every
persistent register keeps its value and the CORE is ready for the next command (R250). There is no handler, no saved
state and hence no return (R251). -/
def raise (kind : ErrorKind) (s : State) : Answer :=
  .next (s.finish { status := .error kind, rb := 0x00, dout := [], trace := [] })

/-! ## Checks -/

/-- The key check of R242: with KEY_VALID = 0 the command raises UninitializedKey; otherwise it goes on with KS. -/
def withSchedule (s : State) (go : Schedule → Answer) : Answer :=
  match s.core.key with
  | none => raise .uninitializedKey s
  | some k => go k.ks

/-- CheckShape of R192: a column count that is 0 or no multiple of 4 raises InvalidBlockShape. -/
def withShape (ncols : Nat) (s : State) (go : Answer) : Answer :=
  if ncols = 0 ∨ ncols % 4 ≠ 0 then raise .invalidBlockShape s else go

/-! ## Between commands -/

/-- The CORE accepts a command: its payload becomes DIN and the host's list goes on with `rest` (R70). -/
def State.accept (s : State) (c : Command) (rest : List HostEvent) : State := { s with pending := rest, din := c.din }

/-- The reset event: every register at its reset value, whatever it held; no response is produced (R270, R273). -/
def State.resetEvent (s : State) (rest : List HostEvent) : State :=
  { s with core := CoreState.reset, work := Working.reset, pending := rest, din := [] }

end Sys2Proof.Machine
end

