-- ==== Sys2Proof/Machine/Operands.lean ====
section
/-! DEFINITION. The operand forms: how a command takes its payload DIN, one operation per payload shape of
`30_encoding.md` rule R72. A payload that has not the length the word announces has no meaning (R76) and is refused here, so
that no meaning ever reads a column that was not supplied. Immediate operands are fields of `Instr`. -/

namespace Sys2Proof.Machine

/-- No payload: formats Z, B1, B2, R, M and I. -/
def withNoPayload (s : State) (go : Answer) : Answer :=
  match s.din with
  | [] => go
  | _ => .refused .payloadLength

/-- One column, DIN[0]: format W. -/
def withCol (s : State) (go : Col → Answer) : Answer :=
  match s.din with
  | [l] => go (Col.ofLane l)
  | _ => .refused .payloadLength

/-- One block, DIN[0..3], column 0 first: formats S and SI. -/
def withBlock (s : State) (go : Block → Answer) : Answer :=
  match s.din with
  | [l0, l1, l2, l3] => go (Block.ofLanes l0 l1 l2 l3)
  | _ => .refused .payloadLength

/-- Two blocks, DIN[0..3] and DIN[4..7]: format SK. -/
def withTwoBlocks (s : State) (go : Block → Block → Answer) : Answer :=
  match s.din with
  | [l0, l1, l2, l3, l4, l5, l6, l7] => go (Block.ofLanes l0 l1 l2 l3) (Block.ofLanes l4 l5 l6 l7)
  | _ => .refused .payloadLength

/-- n columns: format C with n = ncols, format M2 with n = na + nb. -/
def withLanes (n : Nat) (s : State) (go : List Lane → Answer) : Answer :=
  if s.din.length = n then go s.din else .refused .payloadLength

/-- `sint(imm[23:0])`, the one signed operand: the index of CTRB (R73). -/
def sint24 (idx : BitVec 24) : Int := idx.toInt

end Sys2Proof.Machine
end

