-- ==== Sys2Proof/Machine/Field.lean ====
section
/-! DEFINITION. The field arithmetic engine, `41_field_arithmetic.md`: GF(2^8) addition, `xtime`, the product and the matrix
adder, and the commands ADD, XTIME, MUL and MADD. -/

namespace Sys2Proof.Machine

/-! ## Functions -/

/-- `add(a, b)`: addition in GF(2^8) (R100). -/
def gfAdd (a b : Byte) : Byte := a ^^^ b

/-- `xtime(a)`: multiplication by x, the 9-bit shifted value reduced by 0x1B when bit 7 of a was set (R101). -/
def xtime (a : Byte) : Byte :=
  let t : BitVec 9 := a.setWidth 9 <<< 1
  if a.getLsbD 7 then t.extractLsb' 0 8 ^^^ 0x1B else t.extractLsb' 0 8

/-- The loop of R102 from step i on, with `steps` steps left: t is 2^i • a, p the sum of the terms selected so far. -/
def mulLoop (b : Byte) : (steps i : Nat) → (t p : Byte) → Byte
  | 0, _, _, p => p
  | steps + 1, i, t, p => mulLoop b steps (i + 1) (xtime t) (if b.getLsbD i then p ^^^ t else p)

/-- `multiply(a, b)`: the GF(2^8) product (R102). -/
def multiply (a b : Byte) : Byte := mulLoop b 8 0 a 0x00

/-- `madd(A, B)`: element-wise addition of two equally shaped matrices; `none` is the dimension mismatch (R103). -/
def madd (a b : Matrix) : Option Matrix :=
  if a.length = b.length then some (List.zipWith Col.xor a b) else none

/-! ## Commands -/

/-- ADD a, b (R104). -/
def execAdd (a b : Byte) (s : State) : Answer := withNoPayload s (respond (gfAdd a b) [] [] s)

/-- XTIME a (R105). -/
def execXtime (a : Byte) (s : State) : Answer := withNoPayload s (respond (xtime a) [] [] s)

/-- MUL a, b (R106): a is the operand that is doubled, b the one whose bits select. -/
def execMul (a b : Byte) (s : State) : Answer := withNoPayload s (respond (multiply a b) [] [] s)

/-- MADD na, nb : A B (R107): A is DIN[0 .. na-1], B is DIN[na .. na+nb-1]. -/
def execMadd (na nb : BitVec 12) (s : State) : Answer :=
  withLanes (na.toNat + nb.toNat) s fun ls =>
    match madd (matrixOf (ls.take na.toNat)) (matrixOf (ls.drop na.toNat)) with
    | none => raise .dimensionMismatch s
    | some y => respond 0x00 (lanesOfMatrix y) [] s

end Sys2Proof.Machine
end

