-- ==== Sys2Proof/Machine/KeySchedule.lean ====
section
/-! DEFINITION. The key-schedule generator, `44_key_schedule.md`: RCON, RotWord, SubWord, KeyExpansion, and the commands LDKEY,
RDRK, ROTW and SUBW. -/

namespace Sys2Proof.Machine

/-! ## The round-constant ROM -/

/-- RCON, ten columns (R150). -/
def rconTable : Vector Lane 10 :=
  #v[0x01000000, 0x02000000, 0x04000000, 0x08000000, 0x10000000,
     0x20000000, 0x40000000, 0x80000000, 0x1b000000, 0x36000000]

/-- `RCON[j]`; the generator reads j = 0 to 9 only (R60). -/
def rcon (j : Nat) : Col := if h : j < 10 then Col.ofLane rconTable[j] else default

/-! ## Functions -/

/-- RotWord (R151). -/
def rotWord (w : Col) : Col := ⟨w.w1, w.w2, w.w3, w.w0⟩

/-- SubWord (R152). -/
def subWord (w : Col) : Col := ⟨sbox w.w0, sbox w.w1, sbox w.w2, sbox w.w3⟩

/-- What `tmp` holds when column i is formed from the previous column (R153). -/
def scheduleTmp (i : Nat) (prev : Col) : Col :=
  if i % 4 = 0 then (subWord (rotWord prev)).xor (rcon ((i - 1) / 4)) else prev

/-- The loop of R153 from column i on, with `steps` columns left to form: KS and the register TMPW. -/
def expandLoop : (steps i : Nat) → Schedule → Col → Schedule × Col
  | 0, _, ks, t => (ks, t)
  | steps + 1, i, ks, _ =>
    let t := scheduleTmp i (ksCol ks (i - 1))
    expandLoop steps (i + 1) (ks.setIfInBounds i ((ksCol ks (i - 4)).xor t)) t

/-- Columns 0 to 3 of the schedule are the key's columns; columns 4 to 43 are still to be formed (R153). -/
def scheduleStart (key : Block) : Schedule :=
  ((((Vector.replicate 44 default).set 0 key.c0).set 1 key.c1).set 2 key.c2).set 3 key.c3

/-- The generator with its register: KS and the last value of TMPW, from the key and what TMPW held before. -/
def keyExpandRegs (key : Block) (tmpw : Col) : Schedule × Col := expandLoop 40 4 (scheduleStart key) tmpw

/-- KeyExpansion(key) (R153). -/
def keyExpansion (key : Block) : Schedule := (keyExpandRegs key default).1

/-! ## Commands -/

/-- LDKEY : k (R156): KEY, KS and KEY_VALID in one step. -/
def execLdkey (s : State) : Answer :=
  withBlock s fun k =>
    let r := keyExpandRegs k s.work.tmpw
    respond 0x00 [] [] { s with core := s.core.loadKey k r.1, work := { s.work with tmpw := r.2 } }

/-- RDRK r (R157). A term with r > 10 is no legal word and raises IllegalCommand before the key check (R75, R249). -/
def execRdrk (r : BitVec 4) (s : State) : Answer :=
  withNoPayload s
    (if r.toNat ≤ 10 then withSchedule s fun ks => respond 0x00 (roundKey ks r.toNat).lanes [] s
     else raise .illegalCommand s)

/-- ROTW : w (R158). -/
def execRotw (s : State) : Answer := withCol s fun w => respond 0x00 [(rotWord w).toLane] [] s

/-- SUBW : w (R159). -/
def execSubw (s : State) : Answer := withCol s fun w => respond 0x00 [(subWord w).toLane] [] s

end Sys2Proof.Machine
end

