-- ==== Sys2Proof/Machine/Transforms.lean ====
section
/-! DEFINITION. The state transform engine, `43_state_transforms.md`: SubBytes, ShiftRows, MixColumns, AddRoundKey and the
inverses, and the commands SUBB, ISUBB, SHROW, ISHROW, MIXC, IMIXC and ARK. Index arithmetic is in `Fin 4`, so that
`c + r` and `c - r` are the sum and difference mod 4 of the rules. -/

namespace Sys2Proof.Machine

/-! ## Functions -/

/-- SubBytes (R131). -/
def subBytes (s : Block) : Block := s.map sbox

/-- InvSubBytes (R132). -/
def invSubBytes (s : Block) : Block := s.map isbox

/-- ShiftRows: row r rotated left by r, `S'[r][c] = S[r][(c + r) mod 4]` (R133). -/
def shiftRows (s : Block) : Block := Block.ofFn fun r c => s.get r (c + r)

/-- InvShiftRows: row r rotated right by r, `S'[r][c] = S[r][(c - r) mod 4]` (R134). -/
def invShiftRows (s : Block) : Block := Block.ofFn fun r c => s.get r (c - r)

/-- The constant matrix MIX, by rows (R136). -/
def mixMatrix : Vector (Vector Byte 4) 4 :=
  #v[#v[0x02, 0x03, 0x01, 0x01], #v[0x01, 0x02, 0x03, 0x01], #v[0x01, 0x01, 0x02, 0x03], #v[0x03, 0x01, 0x01, 0x02]]

/-- The constant matrix IMIX, by rows (R137). -/
def invMixMatrix : Vector (Vector Byte 4) 4 :=
  #v[#v[0x0e, 0x0b, 0x0d, 0x09], #v[0x09, 0x0e, 0x0b, 0x0d], #v[0x0d, 0x09, 0x0e, 0x0b], #v[0x0b, 0x0d, 0x09, 0x0e]]

/-- The matrix product over GF(2^8), matrix on the left: `S'[r][c]` is the sum over k of `M[r][k] • S[k][c]`, the
coefficient being the first operand of multiply (R136). -/
def matrixTimes (m : Vector (Vector Byte 4) 4) (s : Block) : Block :=
  Block.ofFn fun r c =>
    multiply m[r][0] (s.get 0 c) ^^^ multiply m[r][1] (s.get 1 c) ^^^
      multiply m[r][2] (s.get 2 c) ^^^ multiply m[r][3] (s.get 3 c)

/-- MixColumns (R136). -/
def mixColumns (s : Block) : Block := matrixTimes mixMatrix s

/-- InvMixColumns (R137). -/
def invMixColumns (s : Block) : Block := matrixTimes invMixMatrix s

/-- AddRoundKey (R139). -/
def addRoundKey (s k : Block) : Block := Block.ofFn fun r c => gfAdd (s.get r c) (k.get r c)

/-! ## Commands -/

/-- SUBB : s (R140). -/
def execSubb (s : State) : Answer := withBlock s fun x => respond 0x00 (subBytes x).lanes [] s

/-- ISUBB : s (R141). -/
def execIsubb (s : State) : Answer := withBlock s fun x => respond 0x00 (invSubBytes x).lanes [] s

/-- SHROW : s (R142). -/
def execShrow (s : State) : Answer := withBlock s fun x => respond 0x00 (shiftRows x).lanes [] s

/-- ISHROW : s (R143). -/
def execIshrow (s : State) : Answer := withBlock s fun x => respond 0x00 (invShiftRows x).lanes [] s

/-- MIXC : s (R144). -/
def execMixc (s : State) : Answer := withBlock s fun x => respond 0x00 (mixColumns x).lanes [] s

/-- IMIXC : s (R145). -/
def execImixc (s : State) : Answer := withBlock s fun x => respond 0x00 (invMixColumns x).lanes [] s

/-- ARK : s k (R146): the State comes first; KS is not read. -/
def execArk (s : State) : Answer := withTwoBlocks s fun x k => respond 0x00 (addRoundKey x k).lanes [] s

end Sys2Proof.Machine
end

