-- ==== Sys2Proof/Machine/Trace.lean ====
section
/-! DEFINITION. The debug trace, `47_trace.md`: the primitive `emit` (R223), the records of one pipeline run as R224 and R225
tabulate them, and the commands TRON and TROFF. Which value a label shows is the specification's decision D22, from general
knowledge; no result depends on it. -/

namespace Sys2Proof.Machine

/-- `emit(r, label, v)`: one record when tracing is enabled, none otherwise (R223). -/
def emit (en : Bool) (round : BitVec 4) (label : Label) (value : Block) : List TraceRecord :=
  if en then [{ round := round, label := label, value := value }] else []

/-! ## Commands -/

/-- TRON (R220). -/
def execTron (s : State) : Answer :=
  withNoPayload s (respond 0x00 [] [] { s with core := s.core.setTraceEn true })

/-- TROFF (R221). -/
def execTroff (s : State) : Answer :=
  withNoPayload s (respond 0x00 [] [] { s with core := s.core.setTraceEn false })

end Sys2Proof.Machine
end

