-- ==== Sys2Proof/Machine/Pipelines.lean ====
section
/-! DEFINITION. The cipher round pipelines, `45_cipher_pipelines.md`, twice over: as functions of a block and a schedule (R170,
R171, with the trace tables of `47_trace.md` rules R224 and R225), and as the sequencer over the registers STATE, PHASE and
ROUND that `10_state.md` rule R29 describes. The commands CIPH and ICIPH run the sequencer. -/

namespace Sys2Proof.Machine

/-! ## The functions -/

/-- Rounds 1 to 9 of the forward cipher: AddRoundKey(MixColumns(ShiftRows(SubBytes(s))), RoundKey(round)) (R170). -/
def cipherRound (ks : Schedule) (round : Nat) (s : Block) : Block :=
  addRoundKey (mixColumns (shiftRows (subBytes s))) (roundKey ks round)

/-- The State after the Initial step and the first `n` rounds of the forward cipher (R170). -/
def cipherState (x : Block) (ks : Schedule) : Nat → Block
  | 0 => addRoundKey x (roundKey ks 0)
  | n + 1 => cipherRound ks (n + 1) (cipherState x ks n)

/-- `Cipher(in, ks)` (R170). -/
def cipher (x : Block) (ks : Schedule) : Block :=
  addRoundKey (shiftRows (subBytes (cipherState x ks 9))) (roundKey ks 10)

/-- Rounds 1 to 9 of the inverse cipher: InvMixColumns(AddRoundKey(InvSubBytes(InvShiftRows(s)), RoundKey(10 - round)))
(R171, R172). -/
def invCipherRound (ks : Schedule) (round : Nat) (s : Block) : Block :=
  invMixColumns (addRoundKey (invSubBytes (invShiftRows s)) (roundKey ks (10 - round)))

/-- The State after the Initial step and the first `n` rounds of the inverse cipher (R171). -/
def invCipherState (x : Block) (ks : Schedule) : Nat → Block
  | 0 => addRoundKey x (roundKey ks 10)
  | n + 1 => invCipherRound ks (n + 1) (invCipherState x ks n)

/-- `InvCipher(in, ks)` (R171). -/
def invCipher (x : Block) (ks : Schedule) : Block :=
  addRoundKey (invSubBytes (invShiftRows (invCipherState x ks 9))) (roundKey ks 0)

/-! ## The trace tables -/

/-- Records 5r-2 to 5r+2 of R224, for a round r that starts with State `s`. -/
def forwardRoundTrace (ks : Schedule) (r : Nat) (s : Block) : List TraceRecord :=
  [⟨r, .start, s⟩, ⟨r, .sBox, subBytes s⟩, ⟨r, .sRow, shiftRows (subBytes s)⟩,
   ⟨r, .mCol, mixColumns (shiftRows (subBytes s))⟩, ⟨r, .kSch, roundKey ks r⟩]

/-- The 52 records of one run of the forward pipeline (R224). -/
def forwardTrace (x : Block) (ks : Schedule) : List TraceRecord :=
  [⟨0, .input, x⟩, ⟨0, .kSch, roundKey ks 0⟩]
    ++ (List.range 9).flatMap (fun n => forwardRoundTrace ks (n + 1) (cipherState x ks n))
    ++ [⟨10, .start, cipherState x ks 9⟩, ⟨10, .sBox, subBytes (cipherState x ks 9)⟩,
        ⟨10, .sRow, shiftRows (subBytes (cipherState x ks 9))⟩, ⟨10, .kSch, roundKey ks 10⟩,
        ⟨10, .output, cipher x ks⟩]

/-- Records 5r-2 to 5r+2 of R225, for a round r that starts with State `s`. -/
def inverseRoundTrace (ks : Schedule) (r : Nat) (s : Block) : List TraceRecord :=
  [⟨r, .istart, s⟩, ⟨r, .isRow, invShiftRows s⟩, ⟨r, .isBox, invSubBytes (invShiftRows s)⟩,
   ⟨r, .ikSch, roundKey ks (10 - r)⟩,
   ⟨r, .ikAdd, addRoundKey (invSubBytes (invShiftRows s)) (roundKey ks (10 - r))⟩]

/-- The 52 records of one run of the inverse pipeline (R225). -/
def inverseTrace (x : Block) (ks : Schedule) : List TraceRecord :=
  [⟨0, .iinput, x⟩, ⟨0, .ikSch, roundKey ks 10⟩]
    ++ (List.range 9).flatMap (fun n => inverseRoundTrace ks (n + 1) (invCipherState x ks n))
    ++ [⟨10, .istart, invCipherState x ks 9⟩, ⟨10, .isRow, invShiftRows (invCipherState x ks 9)⟩,
        ⟨10, .isBox, invSubBytes (invShiftRows (invCipherState x ks 9))⟩, ⟨10, .ikSch, roundKey ks 0⟩,
        ⟨10, .ioutput, invCipher x ks⟩]

/-! ## The sequencer -/

/-- After the Initial step: ROUND <- 1, PHASE <- Round (R29). -/
def Working.toRounds (w : Working) (s : Block) : Working := { w with state := s, round := 1, phase := .round }

/-- After a round: ROUND <- ROUND + 1, and PHASE <- FinalRound when the new ROUND is 10 (R29). -/
def Working.nextRound (w : Working) (s : Block) : Working :=
  { w with state := s, round := w.round + 1, phase := if w.round + 1 = 10 then .finalRound else .round }

/-- After the final round: PHASE <- Output (R29). -/
def Working.toOutput (w : Working) (s : Block) : Working := { w with state := s, phase := .output }

/-- One phase step of the forward pipeline, with the records it emits (R29, R170). -/
def cipherTick (ks : Schedule) (en : Bool) (w : Working) : Working × List TraceRecord :=
  let s0 := w.state
  let s1 := subBytes s0
  let s2 := shiftRows s1
  let s3 := mixColumns s2
  match w.phase with
  | .initial =>
    (w.toRounds (addRoundKey s0 (roundKey ks 0)), emit en 0 .input s0 ++ emit en 0 .kSch (roundKey ks 0))
  | .round =>
    let k := roundKey ks w.round.toNat
    (w.nextRound (addRoundKey s3 k),
     emit en w.round .start s0 ++ emit en w.round .sBox s1 ++ emit en w.round .sRow s2
       ++ emit en w.round .mCol s3 ++ emit en w.round .kSch k)
  | .finalRound =>
    let k := roundKey ks 10
    (w.toOutput (addRoundKey s2 k),
     emit en 10 .start s0 ++ emit en 10 .sBox s1 ++ emit en 10 .sRow s2 ++ emit en 10 .kSch k
       ++ emit en 10 .output (addRoundKey s2 k))
  | .output => (w, [])

/-- One phase step of the inverse pipeline, with the records it emits (R29, R171). -/
def invCipherTick (ks : Schedule) (en : Bool) (w : Working) : Working × List TraceRecord :=
  let s0 := w.state
  let s1 := invShiftRows s0
  let s2 := invSubBytes s1
  match w.phase with
  | .initial =>
    (w.toRounds (addRoundKey s0 (roundKey ks 10)), emit en 0 .iinput s0 ++ emit en 0 .ikSch (roundKey ks 10))
  | .round =>
    let k := roundKey ks (10 - w.round.toNat)
    (w.nextRound (invMixColumns (addRoundKey s2 k)),
     emit en w.round .istart s0 ++ emit en w.round .isRow s1 ++ emit en w.round .isBox s2
       ++ emit en w.round .ikSch k ++ emit en w.round .ikAdd (addRoundKey s2 k))
  | .finalRound =>
    let k := roundKey ks 0
    (w.toOutput (addRoundKey s2 k),
     emit en 10 .istart s0 ++ emit en 10 .isRow s1 ++ emit en 10 .isBox s2 ++ emit en 10 .ikSch k
       ++ emit en 10 .ioutput (addRoundKey s2 k))
  | .output => (w, [])

/-- The two pipelines. -/
inductive Direction where
  | forward
  | inverse
  deriving DecidableEq, Repr

/-- One phase step of the pipeline of a direction. -/
def tick (dir : Direction) (ks : Schedule) (en : Bool) (w : Working) : Working × List TraceRecord :=
  match dir with
  | .forward => cipherTick ks en w
  | .inverse => invCipherTick ks en w

/-- `n` phase steps, the records in emission order. -/
def runTicks (dir : Direction) (ks : Schedule) (en : Bool) : Nat → Working → Working × List TraceRecord
  | 0, w => (w, [])
  | n + 1, w =>
    let r := tick dir ks en w
    let q := runTicks dir ks en n r.1
    (q.1, r.2 ++ q.2)

/-- The start of a pipeline: STATE <- in, PHASE <- Initial, ROUND <- 0 (R29). -/
def Working.load (w : Working) (x : Block) : Working := { w with state := x, phase := .initial, round := 0 }

/-- A whole run of a pipeline on `x`, from whatever the registers hold: Initial, nine rounds and FinalRound, eleven phase
steps, after which PHASE = Output and STATE is the result (R29, R170, R171). -/
def runPipeline (dir : Direction) (ks : Schedule) (en : Bool) (x : Block) (w : Working) : Working × List TraceRecord :=
  runTicks dir ks en 11 (w.load x)

/-! ## Commands -/

/-- CIPH : x (R174). -/
def execCiph (s : State) : Answer :=
  withBlock s fun x =>
    withSchedule s fun ks =>
      let r := runPipeline .forward ks s.core.traceEn x s.work
      respond 0x00 r.1.state.lanes r.2 { s with work := r.1 }

/-- ICIPH : x (R175). -/
def execIciph (s : State) : Answer :=
  withBlock s fun x =>
    withSchedule s fun ks =>
      let r := runPipeline .inverse ks s.core.traceEn x s.work
      respond 0x00 r.1.state.lanes r.2 { s with work := r.1 }

end Sys2Proof.Machine
end

