-- ==== Sys2Proof/Machine/Modes.lean ====
section
/-! DEFINITION. The mode-of-operation layer, `46_modes.md`: the counter block, the ECB and CTR sequencers as functions (R197 to
R199) and over the registers BLK, CTRBLK and KSTREAM, and the commands SETMODE, SETIV, CTRB, ECBE, ECBD, CTRX, ENC and
DEC. -/

namespace Sys2Proof.Machine

/-! ## The functions -/

/-- `CtrBlock(iv, j)` for a block index j ≥ 0: `blk((int(iv) + j) mod 2^128)` (R194). -/
def counterBlock (iv : Block) (j : Nat) : Block := Block.blk ((iv.int + j) % 2 ^ 128)

/-- `CtrBlock(iv, idx)` for any integer; `none` is NegativeCounterIndex (R194). -/
def ctrBlock (iv : Block) (idx : Int) : Option Block :=
  if idx < 0 then none else some (counterBlock iv idx.toNat)

/-- EcbEncrypt (R197). -/
def ecbEncrypt (bs : List Block) (ks : Schedule) : List Block := bs.map fun b => cipher b ks

/-- EcbDecrypt (R198). -/
def ecbDecrypt (bs : List Block) (ks : Schedule) : List Block := bs.map fun b => invCipher b ks

/-- CtrCrypt on the blocks from index j on (R199). -/
def ctrCryptFrom (iv : Block) (ks : Schedule) : Nat → List Block → List Block
  | _, [] => []
  | j, b :: bs => addRoundKey b (cipher (counterBlock iv j) ks) :: ctrCryptFrom iv ks (j + 1) bs

/-- CtrCrypt (R199): the counter starts at the IV in every command (R196). -/
def ctrCrypt (bs : List Block) (iv : Block) (ks : Schedule) : List Block := ctrCryptFrom iv ks 0 bs

/-- Records of an ECB encryption: the forward records of every block, in block order (R226). -/
def ecbEncryptTrace (bs : List Block) (ks : Schedule) : List TraceRecord := bs.flatMap fun b => forwardTrace b ks

/-- Records of an ECB decryption: the inverse records of every block, in block order (R226). -/
def ecbDecryptTrace (bs : List Block) (ks : Schedule) : List TraceRecord := bs.flatMap fun b => inverseTrace b ks

/-- Records of a CTR transform of n blocks: the forward records of every counter block, in block order (R226). -/
def ctrTrace (n : Nat) (iv : Block) (ks : Schedule) : List TraceRecord :=
  (List.range n).flatMap fun j => forwardTrace (counterBlock iv j) ks

/-! ## The sequencers over the registers -/

/-- BLK <- BLK + 1 after a block (R29). -/
def Working.nextBlk (w : Working) : Working := { w with blk := w.blk + 1 }

/-- One block of an ECB sequencer: the pipeline runs on the data block (R197, R198). -/
def ecbStep (dir : Direction) (ks : Schedule) (en : Bool) (b : Block) (w : Working) :
    Working × Block × List TraceRecord :=
  let r := runPipeline dir ks en b w
  (r.1.nextBlk, r.1.state, r.2)

/-- One block of the CTR sequencer: CTRBLK <- IV + BLK, KSTREAM <- its forward cipher, output the exclusive-or (R199). -/
def ctrStep (iv : Block) (ks : Schedule) (en : Bool) (b : Block) (w : Working) :
    Working × Block × List TraceRecord :=
  let w1 := { w with ctrblk := counterBlock iv w.blk.toNat }
  let r := runPipeline .forward ks en w1.ctrblk w1
  let w2 := { r.1 with kstream := r.1.state }
  (w2.nextBlk, addRoundKey b w2.kstream, r.2)

/-- The blocks in increasing index, outputs and records in block order (R193, R226). -/
def sequenceBlocks (step : Block → Working → Working × Block × List TraceRecord) :
    List Block → Working → Working × List Block × List TraceRecord
  | [], w => (w, [], [])
  | b :: bs, w =>
    let r := step b w
    let q := sequenceBlocks step bs r.1
    (q.1, r.2.1 :: q.2.1, r.2.2 ++ q.2.2)

/-- A sequencer command's work and answer: BLK <- 0, the blocks of DIN in order, the output in the same shape. -/
def runSequencer (step : Block → Working → Working × Block × List TraceRecord) (ls : List Lane) (s : State) : Answer :=
  let r := sequenceBlocks step (blocksOf ls) { s.work with blk := 0 }
  respond 0x00 (lanesOf r.2.1) r.2.2 { s with work := r.1 }

/-- The ECB sequencer on the payload, in the given direction. -/
def runEcb (dir : Direction) (ks : Schedule) (ls : List Lane) (s : State) : Answer :=
  runSequencer (ecbStep dir ks s.core.traceEn) ls s

/-- The CTR sequencer on the payload. -/
def runCtr (ks : Schedule) (ls : List Lane) (s : State) : Answer :=
  runSequencer (ctrStep s.core.iv ks s.core.traceEn) ls s

/-- The top-level dispatcher (R203 to R205): with exactly one block the pipeline of the direction runs on it, whatever MODE
holds (the ECB sequencer on a single block is that pipeline run); otherwise MODE selects the sequencer. -/
def dispatchMode (dir : Direction) (ncols : BitVec 24) (ks : Schedule) (ls : List Lane) (s : State) : Answer :=
  if ncols = 4 then runEcb dir ks ls s
  else
    match s.core.mode with
    | .ecb => runEcb dir ks ls s
    | .ctr => runCtr ks ls s
    | .noMode => raise .unsupportedMode s

/-! ## Commands -/

/-- SETMODE alg, mode (R190): the algorithm code is checked first. -/
def execSetmode (alg mode : Byte) (s : State) : Answer :=
  withNoPayload s
    (if alg ≠ 0x01 then raise .malformedTransformationString s
     else
       match Mode.ofSelector mode with
       | none => raise .unsupportedMode s
       | some m => respond 0x00 [] [] { s with core := s.core.setMode m })

/-- SETIV : v (R191). -/
def execSetiv (s : State) : Answer :=
  withBlock s fun v => respond 0x00 [] [] { s with core := s.core.setIv v }

/-- CTRB idx (R195). -/
def execCtrb (idx : BitVec 24) (s : State) : Answer :=
  withNoPayload s
    (match ctrBlock s.core.iv (sint24 idx) with
     | none => raise .negativeCounterIndex s
     | some b => respond 0x00 b.lanes [] s)

/-- ECBE ncols : DIN (R200). -/
def execEcbe (ncols : BitVec 24) (s : State) : Answer :=
  withLanes ncols.toNat s fun ls =>
    withSchedule s fun ks => withShape ncols.toNat s (runEcb .forward ks ls s)

/-- ECBD ncols : DIN (R201). -/
def execEcbd (ncols : BitVec 24) (s : State) : Answer :=
  withLanes ncols.toNat s fun ls =>
    withSchedule s fun ks => withShape ncols.toNat s (runEcb .inverse ks ls s)

/-- CTRX ncols : DIN (R202). -/
def execCtrx (ncols : BitVec 24) (s : State) : Answer :=
  withLanes ncols.toNat s fun ls =>
    withSchedule s fun ks => withShape ncols.toNat s (runCtr ks ls s)

/-- ENC ncols : DIN (R204). -/
def execEnc (ncols : BitVec 24) (s : State) : Answer :=
  withLanes ncols.toNat s fun ls =>
    withSchedule s fun ks => withShape ncols.toNat s (dispatchMode .forward ncols ks ls s)

/-- DEC ncols : DIN (R205). -/
def execDec (ncols : BitVec 24) (s : State) : Answer :=
  withLanes ncols.toNat s fun ls =>
    withSchedule s fun ks => withShape ncols.toNat s (dispatchMode .inverse ncols ks ls s)

end Sys2Proof.Machine
end

