-- ==== Sys2Proof/Machine/Dispatch.lean ====
section
/-! DEFINITION. One arm per command of `30_encoding.md` rule R74, each a direct call of its meaning. -/

namespace Sys2Proof.Machine

def exec (i : Instr) (s : State) : Host.Outcome State Fault Refusal :=
  match i with
  | .add a b => Sys2Proof.Machine.execAdd a b s
  | .xtime a => Sys2Proof.Machine.execXtime a s
  | .mul a b => Sys2Proof.Machine.execMul a b s
  | .madd na nb => Sys2Proof.Machine.execMadd na nb s
  | .sbox a => Sys2Proof.Machine.execSbox a s
  | .isbox a => Sys2Proof.Machine.execIsbox a s
  | .subb => Sys2Proof.Machine.execSubb s
  | .isubb => Sys2Proof.Machine.execIsubb s
  | .shrow => Sys2Proof.Machine.execShrow s
  | .ishrow => Sys2Proof.Machine.execIshrow s
  | .mixc => Sys2Proof.Machine.execMixc s
  | .imixc => Sys2Proof.Machine.execImixc s
  | .ark => Sys2Proof.Machine.execArk s
  | .ldkey => Sys2Proof.Machine.execLdkey s
  | .rdrk r => Sys2Proof.Machine.execRdrk r s
  | .rotw => Sys2Proof.Machine.execRotw s
  | .subw => Sys2Proof.Machine.execSubw s
  | .ciph => Sys2Proof.Machine.execCiph s
  | .iciph => Sys2Proof.Machine.execIciph s
  | .setmode alg mode => Sys2Proof.Machine.execSetmode alg mode s
  | .setiv => Sys2Proof.Machine.execSetiv s
  | .ctrb idx => Sys2Proof.Machine.execCtrb idx s
  | .ecbe ncols => Sys2Proof.Machine.execEcbe ncols s
  | .ecbd ncols => Sys2Proof.Machine.execEcbd ncols s
  | .ctrx ncols => Sys2Proof.Machine.execCtrx ncols s
  | .enc ncols => Sys2Proof.Machine.execEnc ncols s
  | .dec ncols => Sys2Proof.Machine.execDec ncols s
  | .tron => Sys2Proof.Machine.execTron s
  | .troff => Sys2Proof.Machine.execTroff s

end Sys2Proof.Machine
end

