-- ==== Sys2Proof/WellFormed.lean ====
section
/-! DEFINITION. Which terms of `Instr` stand for a legal command word. Every operand has the width of its field, so the
one check left is the range of RDRK's round index (`30_encoding.md` rule R75 (c)). That a command's payload has the length
its word announces (R76) is checked where the payload is read, `Machine/Operands.lean`. -/

namespace Sys2Proof

/-- The command is one a legal word encodes: RDRK has r ≤ 10 (R75 (c), R73). -/
def Instr.wellFormed : Instr → Bool
  | .rdrk r => decide (r.toNat ≤ 10)
  | .add _ _ | .xtime _ | .mul _ _ | .madd _ _ | .sbox _ | .isbox _ => true
  | .subb | .isubb | .shrow | .ishrow | .mixc | .imixc | .ark => true
  | .ldkey | .rotw | .subw | .ciph | .iciph => true
  | .setmode _ _ | .setiv | .ctrb _ => true
  | .ecbe _ | .ecbd _ | .ctrx _ | .enc _ | .dec _ => true
  | .tron | .troff => true

end Sys2Proof
end

