-- ==== Sys2Proof/Decode.lean ====
section
/-! DEFINITION. The decoder of `30_encoding.md` rules R71 to R79, total on every 32-bit word and rejecting by name; the
encoder, written from the same format table; the payload lengths of rule R72; the table of `spec/opcode_table.json`; and
the framing of a command in a stream of lanes (R78). -/

namespace Sys2Proof

/-! ## Formats -/

/-- The twelve formats of R72. -/
inductive Format where
  | z | b1 | b2 | w | s | si | sk | r | m | i | c | m2
  deriving DecidableEq, Repr

/-- The format of each command (R74). -/
def Instr.format : Instr → Format
  | .add _ _ | .mul _ _ => .b2
  | .xtime _ | .sbox _ | .isbox _ => .b1
  | .madd _ _ => .m2
  | .subb | .isubb | .shrow | .ishrow | .mixc | .imixc | .ciph | .iciph => .s
  | .ark => .sk
  | .ldkey | .setiv => .si
  | .rdrk _ => .r
  | .rotw | .subw => .w
  | .setmode _ _ => .m
  | .ctrb _ => .i
  | .ecbe _ | .ecbd _ | .ctrx _ | .enc _ | .dec _ => .c
  | .tron | .troff => .z

/-- `len(DIN)` of R72: how many input columns the command takes. -/
def Instr.dinLen : Instr → Nat
  | .add _ _ | .xtime _ | .mul _ _ | .sbox _ | .isbox _ => 0
  | .madd na nb => na.toNat + nb.toNat
  | .subb | .isubb | .shrow | .ishrow | .mixc | .imixc | .ciph | .iciph => 4
  | .ark => 8
  | .ldkey | .setiv => 4
  | .rdrk _ => 0
  | .rotw | .subw => 1
  | .setmode _ _ => 0
  | .ctrb _ => 0
  | .ecbe n | .ecbd n | .ctrx n | .enc n | .dec n => n.toNat
  | .tron | .troff => 0

/-- `len(DOUT)` of R72: how many output columns a successful response carries. -/
def Instr.doutLen : Instr → Nat
  | .add _ _ | .xtime _ | .mul _ _ | .sbox _ | .isbox _ => 0
  | .madd na _ => na.toNat
  | .subb | .isubb | .shrow | .ishrow | .mixc | .imixc | .ciph | .iciph => 4
  | .ark => 4
  | .ldkey | .setiv => 0
  | .rdrk _ => 4
  | .rotw | .subw => 1
  | .setmode _ _ => 0
  | .ctrb _ => 4
  | .ecbe n | .ecbd n | .ctrx n | .enc n | .dec n => n.toNat
  | .tron | .troff => 0

/-! ## Decoding -/

/-- Why a word is illegal: the three causes of R75. -/
inductive Illegal where
  /-- R75 (a): `op` is none of the 29 values of R74. -/
  | undefinedOp
  /-- R75 (b): a bit the format marks "must be 0" is 1. -/
  | reservedBits
  /-- R75 (c): RDRK with r > 10. -/
  | roundIndex
  deriving DecidableEq, Repr

/-- What decoding a word gives. -/
inductive Decoded where
  | ok (i : Instr)
  | illegal (why : Illegal)
  deriving DecidableEq, Repr

/-- `word[31:24]` (R71). -/
def opField (w : CommandWord) : Byte := w.extractLsb' 24 8

/-- `word[23:0]` (R71). -/
def immField (w : CommandWord) : BitVec 24 := w.extractLsb' 0 24

/-- Formats Z, W, S, SI and SK: all 24 immediate bits must be 0 (R72). -/
def decodeNoImm (i : Instr) (imm : BitVec 24) : Decoded :=
  if imm = 0 then .ok i else .illegal .reservedBits

/-- Format B1: a = imm[7:0], imm[23:8] must be 0 (R72). -/
def decodeB1 (f : Byte → Instr) (imm : BitVec 24) : Decoded :=
  if imm.extractLsb' 8 16 = 0 then .ok (f (imm.extractLsb' 0 8)) else .illegal .reservedBits

/-- Formats B2 and M: the first operand is imm[15:8], the second imm[7:0], imm[23:16] must be 0 (R72). -/
def decodeB2 (f : Byte → Byte → Instr) (imm : BitVec 24) : Decoded :=
  if imm.extractLsb' 16 8 = 0 then .ok (f (imm.extractLsb' 8 8) (imm.extractLsb' 0 8)) else .illegal .reservedBits

/-- Format R: r = imm[3:0], imm[23:4] must be 0, and r ≤ 10, tested after the reserved bits (R72, R75, R79). -/
def decodeR (imm : BitVec 24) : Decoded :=
  if imm.extractLsb' 4 20 = 0 then
    if (imm.extractLsb' 0 4).toNat ≤ 10 then .ok (.rdrk (imm.extractLsb' 0 4)) else .illegal .roundIndex
  else .illegal .reservedBits

/-- Format M2: na = imm[23:12], nb = imm[11:0] (R72). -/
def decodeM2 (imm : BitVec 24) : Decoded :=
  .ok (.madd (imm.extractLsb' 12 12) (imm.extractLsb' 0 12))

/-- Decoding, total, in the order of R79: opcode, reserved bits, range of r, fields. -/
def decode (w : CommandWord) : Decoded :=
  match (opField w).toNat with
  | 0x10 => decodeB2 .add (immField w)
  | 0x11 => decodeB1 .xtime (immField w)
  | 0x12 => decodeB2 .mul (immField w)
  | 0x13 => decodeM2 (immField w)
  | 0x20 => decodeB1 .sbox (immField w)
  | 0x21 => decodeB1 .isbox (immField w)
  | 0x30 => decodeNoImm .subb (immField w)
  | 0x31 => decodeNoImm .isubb (immField w)
  | 0x32 => decodeNoImm .shrow (immField w)
  | 0x33 => decodeNoImm .ishrow (immField w)
  | 0x34 => decodeNoImm .mixc (immField w)
  | 0x35 => decodeNoImm .imixc (immField w)
  | 0x36 => decodeNoImm .ark (immField w)
  | 0x40 => decodeNoImm .ldkey (immField w)
  | 0x41 => decodeR (immField w)
  | 0x42 => decodeNoImm .rotw (immField w)
  | 0x43 => decodeNoImm .subw (immField w)
  | 0x50 => decodeNoImm .ciph (immField w)
  | 0x51 => decodeNoImm .iciph (immField w)
  | 0x60 => decodeB2 .setmode (immField w)
  | 0x61 => decodeNoImm .setiv (immField w)
  | 0x62 => .ok (.ctrb (immField w))
  | 0x63 => .ok (.ecbe (immField w))
  | 0x64 => .ok (.ecbd (immField w))
  | 0x65 => .ok (.ctrx (immField w))
  | 0x66 => .ok (.enc (immField w))
  | 0x67 => .ok (.dec (immField w))
  | 0x70 => decodeNoImm .tron (immField w)
  | 0x71 => decodeNoImm .troff (immField w)
  | _ => .illegal .undefinedOp

/-! ## Encoding -/

/-- A word from its two fields (R71). -/
def wordOf (op : Byte) (imm : BitVec 24) : CommandWord := op ++ imm

/-- Immediate of format B1 (R72). -/
def immB1 (a : Byte) : BitVec 24 := (0 : BitVec 16) ++ a

/-- Immediate of formats B2 and M (R72). -/
def immB2 (a b : Byte) : BitVec 24 := (0 : BitVec 8) ++ (a ++ b)

/-- Immediate of format R (R72). -/
def immR (r : BitVec 4) : BitVec 24 := (0 : BitVec 20) ++ r

/-- Immediate of format M2 (R72). -/
def immM2 (na nb : BitVec 12) : BitVec 24 := na ++ nb

/-- The word of each command (R72, R74). -/
def encode : Instr → CommandWord
  | .add a b => wordOf 0x10 (immB2 a b)
  | .xtime a => wordOf 0x11 (immB1 a)
  | .mul a b => wordOf 0x12 (immB2 a b)
  | .madd na nb => wordOf 0x13 (immM2 na nb)
  | .sbox a => wordOf 0x20 (immB1 a)
  | .isbox a => wordOf 0x21 (immB1 a)
  | .subb => wordOf 0x30 0
  | .isubb => wordOf 0x31 0
  | .shrow => wordOf 0x32 0
  | .ishrow => wordOf 0x33 0
  | .mixc => wordOf 0x34 0
  | .imixc => wordOf 0x35 0
  | .ark => wordOf 0x36 0
  | .ldkey => wordOf 0x40 0
  | .rdrk r => wordOf 0x41 (immR r)
  | .rotw => wordOf 0x42 0
  | .subw => wordOf 0x43 0
  | .ciph => wordOf 0x50 0
  | .iciph => wordOf 0x51 0
  | .setmode alg mode => wordOf 0x60 (immB2 alg mode)
  | .setiv => wordOf 0x61 0
  | .ctrb idx => wordOf 0x62 idx
  | .ecbe n => wordOf 0x63 n
  | .ecbd n => wordOf 0x64 n
  | .ctrx n => wordOf 0x65 n
  | .enc n => wordOf 0x66 n
  | .dec n => wordOf 0x67 n
  | .tron => wordOf 0x70 0
  | .troff => wordOf 0x71 0

/-! ## Framing -/

/-- The number of columns the CORE takes after a word: `len(DIN)`, and 0 for an illegal word (R75, R76). -/
def payloadLen (w : CommandWord) : Nat :=
  match decode w with
  | .ok i => i.dinLen
  | .illegal _ => 0

/-- The first command of a stream of lanes, one word and then `len(DIN)` columns (R78), with what is left of the stream;
`none` where the stream is empty or ends inside a payload (the streaming CORE then waits, R76). -/
def nextCommand : List Lane → Option (Command × List Lane)
  | [] => none
  | w :: rest =>
    if payloadLen w ≤ rest.length then some (⟨w, rest.take (payloadLen w)⟩, rest.drop (payloadLen w)) else none

/-- A command as a stream of lanes carries it (R71, R78). -/
def Command.lanes (c : Command) : List Lane := c.word :: c.din

/-! ## The opcode table -/

/-- A row of `spec/opcode_table.json`: a word belongs to it when its bits under `mask` are `bits`. -/
structure Row where
  mnemonic : String
  format   : Format
  bits     : CommandWord
  mask     : CommandWord
  deriving DecidableEq, Repr

/-- Rows of the document's sections 4.1 to 4.3. -/
def unitRows : List Row :=
  [⟨"ADD", .b2, 0x10000000, 0xFFFF0000⟩, ⟨"XTIME", .b1, 0x11000000, 0xFFFFFF00⟩,
   ⟨"MUL", .b2, 0x12000000, 0xFFFF0000⟩, ⟨"MADD", .m2, 0x13000000, 0xFF000000⟩,
   ⟨"SBOX", .b1, 0x20000000, 0xFFFFFF00⟩, ⟨"ISBOX", .b1, 0x21000000, 0xFFFFFF00⟩,
   ⟨"SUBB", .s, 0x30000000, 0xFFFFFFFF⟩, ⟨"ISUBB", .s, 0x31000000, 0xFFFFFFFF⟩,
   ⟨"SHROW", .s, 0x32000000, 0xFFFFFFFF⟩, ⟨"ISHROW", .s, 0x33000000, 0xFFFFFFFF⟩,
   ⟨"MIXC", .s, 0x34000000, 0xFFFFFFFF⟩, ⟨"IMIXC", .s, 0x35000000, 0xFFFFFFFF⟩,
   ⟨"ARK", .sk, 0x36000000, 0xFFFFFFFF⟩]

/-- Rows of the document's sections 4.4 and 4.5. -/
def keyRows : List Row :=
  [⟨"LDKEY", .si, 0x40000000, 0xFFFFFFFF⟩, ⟨"RDRK", .r, 0x41000000, 0xFFFFFFF0⟩,
   ⟨"ROTW", .w, 0x42000000, 0xFFFFFFFF⟩, ⟨"SUBW", .w, 0x43000000, 0xFFFFFFFF⟩,
   ⟨"CIPH", .s, 0x50000000, 0xFFFFFFFF⟩, ⟨"ICIPH", .s, 0x51000000, 0xFFFFFFFF⟩]

/-- Rows of the document's sections 4.6 and 4.7. -/
def modeRows : List Row :=
  [⟨"SETMODE", .m, 0x60000000, 0xFFFF0000⟩, ⟨"SETIV", .si, 0x61000000, 0xFFFFFFFF⟩,
   ⟨"CTRB", .i, 0x62000000, 0xFF000000⟩, ⟨"ECBE", .c, 0x63000000, 0xFF000000⟩,
   ⟨"ECBD", .c, 0x64000000, 0xFF000000⟩, ⟨"CTRX", .c, 0x65000000, 0xFF000000⟩,
   ⟨"ENC", .c, 0x66000000, 0xFF000000⟩, ⟨"DEC", .c, 0x67000000, 0xFF000000⟩,
   ⟨"TRON", .z, 0x70000000, 0xFFFFFFFF⟩, ⟨"TROFF", .z, 0x71000000, 0xFFFFFFFF⟩]

/-- The opcode table, 29 rows (R74). -/
def opcodeTable : List Row := unitRows ++ keyRows ++ modeRows

/-- The word belongs to the row. -/
def Row.matches (r : Row) (w : CommandWord) : Bool := w &&& r.mask == r.bits

/-- A word is legal when a row of the table has it and, in RDRK's row, r ≤ 10 (R75). -/
def legalWord (w : CommandWord) : Bool :=
  opcodeTable.any fun r => r.matches w && (r.format != .r || decide ((w.extractLsb' 0 4).toNat ≤ 10))

/-! ## The host's question -/

/-- The instruction the decoder reads from the word `w`, numbered as the table numbers its bits; what lies above `nbits`
is 0. One command word is 32 bits and stands on the port as one value, so no byte order enters. -/
def decodeTableWord (nbits w : Nat) : Option Instr :=
  match decode (BitVec.ofNat 32 (w % 2 ^ nbits)) with
  | .ok i => some i
  | .illegal _ => none

end Sys2Proof
end

