-- ==== Sys2Proof/Machine/Fetch.lean ====
section
/-! DEFINITION. Taking the next thing the host does: no event, a reset, an illegal word or a command that decodes
(`30_encoding.md` rules R70, R75, R79). `Step.lean` only calls this. -/

namespace Sys2Proof.Machine

/-- What the next event asks of the step: an answer at once, or an instruction to execute. -/
inductive Fetched where
  | answer (a : Answer)
  | execute (i : Instr) (s : State)

/-- The CORE with no command presented is "ready for a command" and waits: nothing changes (R259, R274).
DESIGN CHOICE (assumption log 2): such a step is a step that changes nothing. -/
def idle (s : State) : Answer := .next s

/-- An illegal word raises IllegalCommand and takes no payload (R75, R248); one that is presented with columns all the same
is a command of the wrong length (R76). -/
def illegalWord (s : State) : Answer := withNoPayload s (raise .illegalCommand s)

/-- The head of the host's list decides the step (R70, R79, R270). -/
def fetch (s : State) : Fetched :=
  match s.pending with
  | [] => .answer (idle s)
  | .reset :: rest => .answer (.next (s.resetEvent rest))
  | .command c :: rest =>
    match decode c.word with
    | .ok i => .execute i (s.accept c rest)
    | .illegal _ => .answer (illegalWord (s.accept c rest))

/-- A command with the word `w` of `nbits` bits and a payload of zero columns of the length the word announces. -/
def zeroPayloadCommand (nbits w : Nat) : Command :=
  let word := BitVec.ofNat 32 (w % 2 ^ nbits)
  { word := word, din := List.replicate (payloadLen word) 0 }

/-- `s` with the command put first in the host's list, so that the next step accepts it. -/
def State.present (s : State) (c : Command) : State := { s with pending := .command c :: s.pending }

end Sys2Proof.Machine
end

