-- ==== Sys2Proof/Machine/Step.lean ====
section
/-! DEFINITION. The step function of `00_scope.md` rule R13: one command, executed atomically, gives one response. -/

namespace Sys2Proof.Machine

/-- One step: what the host does next is taken, and an instruction that decodes is executed whole (R13, R70). -/
def step (s : State) : Host.Outcome State Fault Refusal :=
  match fetch s with
  | .answer a => a
  | .execute i t => exec i t

/-- `s` with the word `w` presented at the command port as the very next command, its payload zero columns in the number
the word announces: "operand words of zeros". -/
def State.withFetchWord (s : State) (nbits w : Nat) : State := s.present (zeroPayloadCommand nbits w)

end Sys2Proof.Machine
end

