-- ==== Sys2Proof/Machine/TraceText.lean ====
section
/-! DEFINITION. Text outside the CORE: the hex serialisation of `20_memory.md` rule R55 and the line of one trace record,
`47_trace.md` rule R229, for the external formatter. No command uses this file: the CORE "neither produces nor consumes
text". TRACE_PAD is left OPEN by the specification (R7, R229, conflict C8), so it is an argument here. The banner lines of
R228 are not recoverable from the source and are not modelled. -/

namespace Sys2Proof.Machine

/-- One lowercase hexadecimal digit (R55). -/
def hexDigit (v : BitVec 4) : Char := Nat.digitChar v.toNat

/-- The two digits of a byte, high nibble first (R55). -/
def hexByte (b : Byte) : List Char := [hexDigit (b.extractLsb' 4 4), hexDigit (b.extractLsb' 0 4)]

/-- The eight digits of a column, row 0 first. -/
def hexCol (w : Col) : List Char := hexByte w.w0 ++ hexByte w.w1 ++ hexByte w.w2 ++ hexByte w.w3

/-- `hex(b)`: the 32 digits of a block, b[0] first (R55). -/
def hexBlock (b : Block) : List Char := hexCol b.c0 ++ hexCol b.c1 ++ hexCol b.c2 ++ hexCol b.c3

/-- The OPEN parameter TRACE_PAD: the side on which the round number is padded (R7, R229). -/
inductive TracePad where
  | right
  | left
  deriving DecidableEq, Repr

/-- The name of a label in a line (R222). -/
def Label.name : Label → String
  | .input => "input"
  | .kSch => "k_sch"
  | .start => "start"
  | .sBox => "s_box"
  | .sRow => "s_row"
  | .mCol => "m_col"
  | .output => "output"
  | .iinput => "iinput"
  | .ikSch => "ik_sch"
  | .istart => "istart"
  | .isRow => "is_row"
  | .isBox => "is_box"
  | .ikAdd => "ik_add"
  | .ioutput => "ioutput"

/-- The round number in decimal, padded to width 2 with a space (R229). -/
def padRound (pad : TracePad) (round : BitVec 4) : List Char :=
  if round.toNat < 10 then
    match pad with
    | .right => [Nat.digitChar round.toNat, ' ']
    | .left => [' ', Nat.digitChar round.toNat]
  else [Nat.digitChar (round.toNat / 10), Nat.digitChar (round.toNat % 10)]

/-- The line `round[rr].label hexstate` of a record (R229). -/
def renderRecord (pad : TracePad) (t : TraceRecord) : List Char :=
  "round[".toList ++ padRound pad t.round ++ "].".toList ++ t.label.name.toList ++ " ".toList ++ hexBlock t.value

end Sys2Proof.Machine
end

