-- ==== Sys2Proof/Machine/Assembler.lean ====
section
/-! DEFINITION. What the host's side does to form commands: the assembler syntax of `30_encoding.md` rule R80, as a printer,
and the pseudo-instructions of R81, as the commands they expand to. No step uses this file: the CORE sees words and lanes
only. -/

namespace Sys2Proof.Machine

/-! ## Pseudo-instructions -/

/-- The pseudo-instructions of R81, their hex strings already read as blocks (text to bytes is an external collaborator's,
R5). -/
inductive Pseudo where
  /-- TRANSFORM "<string>". -/
  | transform (s : String)
  /-- IV with an operand, or without one: the default. -/
  | iv (v : Option Block)
  /-- KEY. -/
  | key (k : Block)
  /-- ENCRYPT of whole blocks; padding is outside the specification. -/
  | encrypt (data : List Block)
  /-- DECRYPT of whole blocks. -/
  | decrypt (data : List Block)
  /-- RDKS. -/
  | rdks
  /-- DEBUG on or off. -/
  | debug (on : Bool)
  deriving DecidableEq, Repr

/-- The codes of a transformation string, compared case by case and case-sensitively (R81). -/
def transformCodes (s : String) : Byte × Byte :=
  let t := s.toList
  if t = "AES128/ECB".toList then (0x01, 0x01)
  else if t = "AES128/CTR".toList then (0x01, 0x02)
  else if t.take 7 = "AES128/".toList then (0x01, 0x00)
  else (0x00, 0x00)

/-- A command without payload. -/
def bare (i : Instr) : Command := ⟨encode i, []⟩

/-- A counted command on whole blocks; `none` where the count does not fit the 24-bit field (R73). -/
def counted (f : BitVec 24 → Instr) (data : List Block) : Option (List Command) :=
  if 4 * data.length < 2 ^ 24 then some [⟨encode (f (BitVec.ofNat 24 (4 * data.length))), lanesOf data⟩] else none

/-- The expansion of a pseudo-instruction (R81). -/
def Pseudo.expand : Pseudo → Option (List Command)
  | .transform s => some [bare (.setmode (transformCodes s).1 (transformCodes s).2)]
  | .iv (some v) => some [⟨encode .setiv, v.lanes⟩]
  | .iv none => some [⟨encode .setiv, Block.zero.lanes⟩]
  | .key k => some [⟨encode .ldkey, k.lanes⟩]
  | .encrypt data => counted .enc data
  | .decrypt data => counted .dec data
  | .rdks => some ((List.range 11).map fun r => bare (.rdrk (BitVec.ofNat 4 r)))
  | .debug true => some [bare .tron]
  | .debug false => some [bare .troff]

/-! ## Printing -/

/-- A byte operand: hexadecimal with 0x (R80). -/
def asmByte (b : Byte) : List Char := "0x".toList ++ hexByte b

/-- A decimal operand (R80). -/
def asmNat (n : Nat) : List Char := Nat.toDigits 10 n

/-- The operand idx: decimal, with a minus sign where it is negative (R80). -/
def asmInt (z : Int) : List Char := if z < 0 then '-' :: asmNat z.natAbs else asmNat z.natAbs

/-- The operand alg: its name, or a hexadecimal code (R80). -/
def asmAlg (b : Byte) : List Char := if b = 0x01 then "AES128".toList else asmByte b

/-- The operand mode: its name, or a hexadecimal code (R80). -/
def asmMode (b : Byte) : List Char :=
  if b = 0x01 then "ECB".toList else if b = 0x02 then "CTR".toList else asmByte b

/-- Two operands with the comma between them (R80). -/
def asmTwo (a b : List Char) : List Char := a ++ ", ".toList ++ b

/-- The mnemonic of a command (R74). -/
def mnemonic : Instr → String
  | .add _ _ => "ADD"
  | .xtime _ => "XTIME"
  | .mul _ _ => "MUL"
  | .madd _ _ => "MADD"
  | .sbox _ => "SBOX"
  | .isbox _ => "ISBOX"
  | .subb => "SUBB"
  | .isubb => "ISUBB"
  | .shrow => "SHROW"
  | .ishrow => "ISHROW"
  | .mixc => "MIXC"
  | .imixc => "IMIXC"
  | .ark => "ARK"
  | .ldkey => "LDKEY"
  | .rdrk _ => "RDRK"
  | .rotw => "ROTW"
  | .subw => "SUBW"
  | .ciph => "CIPH"
  | .iciph => "ICIPH"
  | .setmode _ _ => "SETMODE"
  | .setiv => "SETIV"
  | .ctrb _ => "CTRB"
  | .ecbe _ => "ECBE"
  | .ecbd _ => "ECBD"
  | .ctrx _ => "CTRX"
  | .enc _ => "ENC"
  | .dec _ => "DEC"
  | .tron => "TRON"
  | .troff => "TROFF"

/-- The immediate operands of a command, as R80 writes them. -/
def asmOperands : Instr → List Char
  | .add a b | .mul a b => asmTwo (asmByte a) (asmByte b)
  | .xtime a | .sbox a | .isbox a => asmByte a
  | .madd na nb => asmTwo (asmNat na.toNat) (asmNat nb.toNat)
  | .rdrk r => asmNat r.toNat
  | .setmode alg mode => asmTwo (asmAlg alg) (asmMode mode)
  | .ctrb idx => asmInt (sint24 idx)
  | .ecbe n | .ecbd n | .ctrx n | .enc n | .dec n => asmNat n.toNat
  | .subb | .isubb | .shrow | .ishrow | .mixc | .imixc | .ark => []
  | .ldkey | .rotw | .subw | .ciph | .iciph | .setiv | .tron | .troff => []

/-- `MNEMONIC operands [: payload]`, the payload as one hex string of 8 digits a column (R80). -/
def assembly (i : Instr) (din : List Lane) : List Char :=
  (mnemonic i).toList
    ++ (if asmOperands i = [] then [] else ' ' :: asmOperands i)
    ++ (if din = [] then [] else " : ".toList ++ din.flatMap fun l => hexCol (Col.ofLane l))

end Sys2Proof.Machine
end

