-- ==== Sys2Proof/Safety.lean ====
section
/-! DEFINITION. What a safe run is, in the terms the statements use: the invariants of `10_state.md` rule R31 and
`60_exceptions.md` rule R250, what a command may write (R36), which errors it may raise (R241), and what a host can see of a
state (R28, R39). -/

namespace Sys2Proof.Machine

/-! ## Responses -/

/-- A successful response (R77). -/
def okResponse (rb : Byte) (dout : List Lane) (trace : List TraceRecord) : Response :=
  { status := .ok, rb := rb, dout := dout, trace := trace }

/-- The response of an error: rb 0x00, no output, no trace (R250). -/
def errorResponse (kind : ErrorKind) : Response := { status := .error kind, rb := 0x00, dout := [], trace := [] }

/-- What holds of every response: an error carries nothing but its status (R250); a trace is a whole number of pipeline
runs of 52 records each (R224 to R227), and no record's round exceeds 10 (R222). -/
def Response.Lawful (r : Response) : Prop :=
  (∀ k, r.status = .error k → r = errorResponse k) ∧ 52 ∣ r.trace.length ∧ ∀ t ∈ r.trace, t.round.toNat ≤ 10

/-! ## The invariant -/

/-- KEY_VALID = 1 implies KS = KeyExpansion(KEY) (R23, R31 (b), R155). -/
def CoreState.Coherent (c : CoreState) : Prop := ∀ k, c.key = some k → k.ks = keyExpansion k.key

/-- The invariant of a run: the key schedule belongs to the key, and every response given is lawful. -/
def State.Inv (s : State) : Prop := s.core.Coherent ∧ ∀ r ∈ s.responses, r.Lawful

/-! ## What a command may write -/

/-- The writers of persistent registers: LDKEY, SETMODE, SETIV, TRON, TROFF (R36). -/
def writesCore : Instr → Bool
  | .ldkey | .setmode _ _ | .setiv | .tron | .troff => true
  | .add _ _ | .xtime _ | .mul _ _ | .madd _ _ | .sbox _ | .isbox _ => false
  | .subb | .isubb | .shrow | .ishrow | .mixc | .imixc | .ark => false
  | .rdrk _ | .rotw | .subw | .ciph | .iciph | .ctrb _ => false
  | .ecbe _ | .ecbd _ | .ctrx _ | .enc _ | .dec _ => false

/-- The commands that read KS (R22, R242). -/
def readsSchedule : Instr → Bool
  | .rdrk _ | .ciph | .iciph | .ecbe _ | .ecbd _ | .ctrx _ | .enc _ | .dec _ => true
  | .add _ _ | .xtime _ | .mul _ _ | .madd _ _ | .sbox _ | .isbox _ => false
  | .subb | .isubb | .shrow | .ishrow | .mixc | .imixc | .ark => false
  | .ldkey | .rotw | .subw | .setmode _ _ | .setiv | .ctrb _ | .tron | .troff => false

/-- The commands that carry a result byte: formats B1 and B2 (R72, R77). -/
def givesByte (i : Instr) : Bool := i.format == .b1 || i.format == .b2

/-- The commands that run a pipeline and so may emit a trace (R227). -/
def runsPipeline : Instr → Bool
  | .ciph | .iciph | .ecbe _ | .ecbd _ | .ctrx _ | .enc _ | .dec _ => true
  | .add _ _ | .xtime _ | .mul _ _ | .madd _ _ | .sbox _ | .isbox _ => false
  | .subb | .isubb | .shrow | .ishrow | .mixc | .imixc | .ark => false
  | .ldkey | .rdrk _ | .rotw | .subw | .setmode _ _ | .setiv | .ctrb _ | .tron | .troff => false

/-- The "raised by" column of R241: which commands of legal words raise an error kind. -/
def mayRaise (i : Instr) : ErrorKind → Bool
  | .uninitializedKey => readsSchedule i
  | .invalidBlockShape => i.format == .c
  | .unsupportedMode =>
    match i with
    | .setmode _ _ | .enc _ | .dec _ => true
    | .add _ _ | .xtime _ | .mul _ _ | .madd _ _ | .sbox _ | .isbox _ => false
    | .subb | .isubb | .shrow | .ishrow | .mixc | .imixc | .ark => false
    | .ldkey | .rdrk _ | .rotw | .subw | .ciph | .iciph | .setiv | .ctrb _ => false
    | .ecbe _ | .ecbd _ | .ctrx _ | .tron | .troff => false
  | .malformedTransformationString => i.format == .m
  | .dimensionMismatch => i.format == .m2
  | .negativeCounterIndex => i.format == .i
  | .illegalCommand => false

/-! ## What the host can see -/

/-- Two states differ at most in the transient registers and in the model's counter of free values: "no command can observe
a value left by an earlier command" (R28), and the record of R39 is complete. -/
def State.SameVisible (s t : State) : Prop :=
  s.core = t.core ∧ s.pending = t.pending ∧ s.din = t.din ∧ s.responses = t.responses

/-- Two answers are of the same kind and, where the run goes on, of states that the host cannot tell apart. -/
def sameAnswer : Answer → Answer → Prop
  | .next s, .next t => s.SameVisible t
  | .refused a, .refused b => a = b
  | .next _, .refused _ | .refused _, .next _ => False
  | .fault a, _ => nomatch a
  | _, .fault a => nomatch a

/-! ## Blocks in a payload -/

/-- Block `b` lies in the place of block j of a payload: byte k of it is byte k mod 4, counted from bits 31:24 down, of
lane 4j + k div 4 (R52, R56, R193). -/
def BlockAt (ls : List Lane) (j : Nat) (b : Block) : Prop :=
  ∀ k : Fin 16, ∃ l, ls[4 * j + k.val / 4]? = some l ∧ b.byte k = l.extractLsb' (24 - 8 * (k.val % 4)) 8

/-! ## Words at the port -/

/-- The CORE takes the word as the instruction `i`: a step that finds it at the port executes `i` on the payload. -/
def AcceptedAs (w : CommandWord) (i : Instr) : Prop :=
  ∀ s din rest, s.pending = .command ⟨w, din⟩ :: rest → step s = exec i (s.accept ⟨w, din⟩ rest)

/-- The CORE answers the word with IllegalCommand (R75, R248). -/
def Rejected (w : CommandWord) : Prop :=
  ∀ s rest, s.pending = .command ⟨w, []⟩ :: rest →
    step s = .next ((s.accept ⟨w, []⟩ rest).finish (errorResponse .illegalCommand))

/-- Words of the opcode `op` in a format whose immediate must be 0: Z, W, S, SI, SK (R72). -/
def NoImmWords (op : Byte) (i : Instr) : Prop :=
  ∀ w, opField w = op → (immField w = 0 → AcceptedAs w i) ∧ (immField w ≠ 0 → Rejected w)

/-- Words of the opcode `op` in format B1 (R72). -/
def B1Words (op : Byte) (f : Byte → Instr) : Prop :=
  ∀ w, opField w = op →
    (w.extractLsb' 8 16 = 0 → AcceptedAs w (f (w.extractLsb' 0 8))) ∧ (w.extractLsb' 8 16 ≠ 0 → Rejected w)

/-- Words of the opcode `op` in format B2 or M (R72). -/
def B2Words (op : Byte) (f : Byte → Byte → Instr) : Prop :=
  ∀ w, opField w = op →
    (w.extractLsb' 16 8 = 0 → AcceptedAs w (f (w.extractLsb' 8 8) (w.extractLsb' 0 8)))
      ∧ (w.extractLsb' 16 8 ≠ 0 → Rejected w)

/-- Words of the opcode `op` in format I or C, which have no reserved bit (R72). -/
def WideWords (op : Byte) (f : BitVec 24 → Instr) : Prop :=
  ∀ w, opField w = op → AcceptedAs w (f (w.extractLsb' 0 24))

end Sys2Proof.Machine
end

