-- ==== Sys2Proof/Certificates/Slice0/Obligations.lean ====
section
/-! DEFINITION. The statements for the provers. A command's statement says how its words are taken at the port (`NoImmWords`,
`B1Words`, `B2Words`, `WideWords`: accepted as the command, or answered IllegalCommand where a reserved bit is set) and then
gives the WHOLE next state: `s.finish r` is `s` with the response `r` appended to the host's record, DIN used up and the
transient registers dead (assumption log 2 and 3 say how the model holds the port and those registers); every persistent
register and the host's list are those of `s`. There is no addressable memory.
No statement rests on the value of a transient register. -/

open Sys2Proof Sys2Proof.Machine

/-! ## Encoding -/

/-- R71 to R74: no bit of an operand is lost between the encoder and the decoder. -/
def Obligations.DecodeOfEncodedCommand : Prop :=
  ∀ i : Instr, i.wellFormed = true → decode (encode i) = .ok i

/-- R71 to R75: a word that decodes is the only word of its command, and the command is well formed. -/
def Obligations.EncodeOfDecodedWord : Prop :=
  ∀ (w : CommandWord) (i : Instr), decode w = .ok i → encode i = w ∧ i.wellFormed = true

/-- R75, R248: a word that a row of the opcode table has, with r ≤ 10 in RDRK's row, is taken as a command; every other word
is answered IllegalCommand, status 0xFF, takes no payload and changes no register. -/
def Obligations.IllegalWordsAreRejected : Prop :=
  ∀ w : CommandWord,
    (legalWord w = true → ∃ i, i.wellFormed = true ∧ AcceptedAs w i) ∧
      (legalWord w = false → Rejected w ∧ payloadLen w = 0) ∧ Status.code (.error .illegalCommand) = 0xFF

/-- R74: the 29 rows of the opcode table are disjoint. -/
def Obligations.OpcodeTableRowsAreDisjoint : Prop :=
  opcodeTable.length = 29 ∧
    ∀ r₁ ∈ opcodeTable, ∀ r₂ ∈ opcodeTable, ∀ w, r₁.matches w = true → r₂.matches w = true → r₁ = r₂

/-- R80, section 2.10 of `95_test_vectors.md`: words written out in the specification. -/
def Obligations.WrittenWordsDecode : Prop :=
  decode 0x12005783 = .ok (.mul 0x57 0x83) ∧ decode 0x11000080 = .ok (.xtime 0x80) ∧
    decode 0x4100000A = .ok (.rdrk 10) ∧ decode 0x60000102 = .ok (.setmode 0x01 0x02) ∧
    decode 0x62FFFFFF = .ok (.ctrb (-1)) ∧ decode 0x66000008 = .ok (.enc 8) ∧
    decode 0x13001001 = .ok (.madd 1 1) ∧ decode 0x70000000 = .ok .tron ∧
    decode 0x14000000 = .illegal .undefinedOp ∧ decode 0x20000153 = .illegal .reservedBits ∧
    decode 0x4100000B = .illegal .roundIndex

/-- R78: "A decoder finds the end of a command as: one word, then len(DIN) Cols". -/
def Obligations.CommandEndsAfterItsPayload : Prop :=
  ∀ (c : Command) (rest : List Lane), c.din.length = payloadLen c.word → nextCommand (c.lanes ++ rest) = some (c, rest)

/-! ## The step -/

/-- R13, R70, R79: a step that finds a decodable command at the port executes it on its payload, in a state in which
nothing else has changed. A reset event, too, is taken off the host's list. The list and DIN are the model's form of the
port (assumption log 2). -/
def Obligations.StepRunsTheDecodedCommand : Prop :=
  (∀ (s : State) (c : Command) (rest : List HostEvent) (i : Instr),
    s.pending = .command c :: rest → decode c.word = .ok i →
      step s = exec i { s with pending := rest, din := c.din }) ∧
    ∀ (s : State) (rest : List HostEvent), s.pending = .reset :: rest →
      ∃ t, step s = .next t ∧ t.pending = rest ∧ t.din = []

/-- R76, R285: a command whose payload has the length its word announces runs, and one with another length is refused. That
`exec` itself is the boundary which refuses, and that it answers the terms RDRK 11 to 15, which no word decodes to, is the
model's choice (assumption log 5 and 11). -/
def Obligations.PayloadLengthDecidesExecution : Prop :=
  (∀ (i : Instr) (s : State),
      (s.din.length = i.dinLen → ∃ t, exec i s = .next t) ∧
        (s.din.length ≠ i.dinLen → exec i s = .refused .payloadLength)) ∧
    ∀ (s : State) (c : Command) (rest : List HostEvent), s.pending = .command c :: rest →
      (c.din.length = payloadLen c.word → ∃ t, step s = .next t) ∧
        (c.din.length ≠ payloadLen c.word → step s = .refused .payloadLength)

/-! ## Reset -/

/-- R34, R39, R271: the values the specification gives for reset. -/
def Obligations.ResetHoldsTheSpecifiedValues : Prop :=
  State.reset.core.key = none ∧ State.reset.core.keyValid = false ∧ State.reset.core.mode = .noMode ∧
    State.reset.core.mode.code = 0 ∧ (∀ k, State.reset.core.iv.byte k = 0) ∧ State.reset.core.traceEn = false ∧
    State.reset.responses = []

/-- R273: the reset event leads to the reset state whatever the CORE held, and a key loaded before is not usable after. By
R13 and R270 no response is produced. That a reset is an event of the host's list, taken by a step, is the model's choice
(assumption log 2). -/
def Obligations.ResetDoesNotDependOnHistory : Prop :=
  ∀ (s : State) (rest : List HostEvent), s.pending = .reset :: rest →
    ∃ t, step s = .next t ∧ t.core = State.reset.core ∧ t.core.keyValid = false ∧ t.responses = s.responses

/-! ## Invariants of the whole machine -/

/-- R31 (b), R250 of the reset state. -/
def Obligations.ResetHasTheInvariant : Prop := State.reset.Inv

/-- R23, R31 (b), R155, R222, R224 to R227, R250: in every state that a step reaches from a state with the invariant, KS is
KeyExpansion(KEY) whenever a key is loaded, and every response is lawful. -/
def Obligations.StepKeepsTheInvariant : Prop :=
  ∀ s t : State, s.Inv → step s = .next t → t.Inv

/-- R36: LDKEY writes KEY, KS and KEY_VALID, SETMODE MODE, SETIV IV, TRON and TROFF TRACE_EN; every other command leaves the
persistent state exactly as it found it. -/
def Obligations.OnlyFiveCommandsWriteRegisters : Prop :=
  ∀ (i : Instr) (s t : State), exec i s = .next t →
    (writesCore i = false → t.core = s.core) ∧
      (i = .ldkey → t.core.mode = s.core.mode ∧ t.core.iv = s.core.iv ∧ t.core.traceEn = s.core.traceEn) ∧
      (∀ alg mode, i = .setmode alg mode →
        t.core.key = s.core.key ∧ t.core.iv = s.core.iv ∧ t.core.traceEn = s.core.traceEn) ∧
      (i = .setiv → t.core.key = s.core.key ∧ t.core.mode = s.core.mode ∧ t.core.traceEn = s.core.traceEn) ∧
      (i = .tron ∨ i = .troff →
        t.core.key = s.core.key ∧ t.core.mode = s.core.mode ∧ t.core.iv = s.core.iv)

/-- R250: after an error every persistent register is as before, and the response carries nothing but the status. -/
def Obligations.ErrorsChangeNoRegister : Prop :=
  ∀ (s t : State) (r : Response), step s = .next t → t.responses = s.responses ++ [r] → r.status ≠ .ok →
    t.core = s.core ∧ r.rb = 0x00 ∧ r.dout = [] ∧ r.trace = []

/-- R77: one response per command; its output has the length of R72 on success and is empty on error; rb is 0x00 for
every command but those of formats B1 and B2; the trace is empty with TRACE_EN = 0, for commands that run no pipeline and on
error. R13, R276: what the host does next is as it was, and DIN is used up; the list and DIN are the model's form of the
port (assumption log 2). -/
def Obligations.EveryCommandGivesOneResponse : Prop :=
  ∀ (i : Instr) (s t : State), exec i s = .next t →
    t.pending = s.pending ∧ t.din = [] ∧
      ∃ r, t.responses = s.responses ++ [r] ∧
        (r.status = .ok → r.dout.length = i.doutLen) ∧
        (r.status ≠ .ok → r.rb = 0x00 ∧ r.dout = [] ∧ r.trace = []) ∧
        (givesByte i = false → r.rb = 0x00) ∧
        (s.core.traceEn = false ∨ runsPipeline i = false → r.trace = [])

/-- R224 to R227: with TRACE_EN = 1 a successful pipeline command emits 52 records per block, and no other command any. -/
def Obligations.TraceHasFiftyTwoRecordsPerBlock : Prop :=
  ∀ (i : Instr) (s t : State) (r : Response), exec i s = .next t → t.responses = s.responses ++ [r] → r.status = .ok →
    r.trace.length = if s.core.traceEn = true ∧ runsPipeline i = true then 52 * (i.dinLen / 4) else 0

/-- R28, R39: no step depends on what the transient registers hold. The host sees the same answer, and the same persistent
registers and responses afterwards. -/
def Obligations.TransientRegistersAreInvisible : Prop :=
  ∀ s t : State, s.SameVisible t → sameAnswer (step s) (step t)

/-- R22, R25, R270: only reset returns KEY_VALID to 0 and MODE to NONE. -/
def Obligations.OnlyResetClearsKeyAndMode : Prop :=
  ∀ s t : State, step s = .next t → (∀ rest, s.pending ≠ .reset :: rest) →
    (s.core.keyValid = true → t.core.keyValid = true) ∧ (s.core.mode ≠ .noMode → t.core.mode ≠ .noMode)

/-! ## Field arithmetic -/

/-- R108: the laws of the field operations. -/
def Obligations.FieldArithmeticLaws : Prop :=
  ∀ a b c : Byte,
    gfAdd a b = gfAdd b a ∧ gfAdd a a = 0 ∧ multiply a (multiply b c) = multiply (multiply a b) c ∧
      multiply a 0x01 = a ∧ multiply a 0x00 = 0 ∧ (xtime a).toNat < 2 ^ 8 ∧ multiply a b = multiply b a ∧
      multiply a (gfAdd b c) = gfAdd (multiply a b) (multiply a c)

/-- R101: xtime shifts left and exclusive-ors 0x1B when bit 7 was set; it is a bijection; the corner cases and the chain. -/
def Obligations.XtimeShiftsAndReduces : Prop :=
  (∀ a : Byte, xtime a = if a.getLsbD 7 then (a <<< 1) ^^^ 0x1B else a <<< 1) ∧ Function.Bijective xtime ∧
    xtime 0x00 = 0x00 ∧ xtime 0x80 = 0x1b ∧ xtime 0x7f = 0xfe ∧ xtime 0xff = 0xe5 ∧ xtime 0x8d = 0x01 ∧
    xtime 0x57 = 0xae ∧ xtime 0xae = 0x47 ∧ xtime 0x47 = 0x8e ∧ xtime 0x8e = 0x07

/-- R102: the product is the sum of the doubles of a that the bits of b select; the corner cases. -/
def Obligations.ProductSumsSelectedDoubles : Prop :=
  (∀ a b : Byte,
      multiply a b = (List.range 8).foldl (fun p i => if b.getLsbD i then p ^^^ xtime^[i] a else p) 0x00) ∧
    (∀ a : Byte, multiply a 0x00 = 0x00 ∧ multiply 0x00 a = 0x00 ∧ multiply a 0x01 = a ∧
      multiply a 0x02 = xtime a ∧ multiply a 0x03 = xtime a ^^^ a) ∧
    multiply 0x57 0x83 = 0xc1 ∧ multiply 0x57 0x13 = 0xfe ∧ multiply 0x53 0xca = 0x01 ∧
    multiply 0xff 0xff = 0x13 ∧ multiply 0x80 0x80 = 0x9a

/-- R109 (a): every non-zero byte has exactly one multiplicative inverse and 0x00 has none. -/
def Obligations.NonzeroBytesHaveOneInverse : Prop :=
  (∀ a : Byte, a ≠ 0x00 → ∃! b, multiply a b = 0x01) ∧ ∀ b, multiply 0x00 b ≠ 0x01

/-! ## Substitution tables -/

/-- R122: the tables undo one another, SBOX has no fixed and no opposite fixed point, and (from general knowledge, as the
rule says) SBOX[a] is the affine image of the inverse of a. -/
def Obligations.SubstitutionTablesAreConsistent : Prop :=
  (∀ x : Byte, isbox (sbox x) = x ∧ sbox (isbox x) = x ∧ sbox x ≠ x ∧ sbox x ≠ x ^^^ 0xff) ∧
    ∀ a b : Byte, (multiply a b = 0x01 ∨ a = 0x00 ∧ b = 0x00) →
      sbox a = b ^^^ b.rotateLeft 1 ^^^ b.rotateLeft 2 ^^^ b.rotateLeft 3 ^^^ b.rotateLeft 4 ^^^ 0x63

/-! ## State transforms -/

/-- R131, R139: SubBytes and AddRoundKey byte by byte; AddRoundKey is `madd` on two four-column matrices, which cannot fail,
and is its own inverse. -/
def Obligations.ByteLaneTransforms : Prop :=
  ∀ (s k : Block) (n : Fin 16),
    (subBytes s).byte n = sbox (s.byte n) ∧ (addRoundKey s k).byte n = s.byte n ^^^ k.byte n ∧
      madd (matrixOf s.lanes) (matrixOf k.lanes) = some (matrixOf (addRoundKey s k).lanes) ∧
      addRoundKey (addRoundKey s k) k = s

/-- R133, R134: the rows rotate left, respectively right, by their index; the byte orders of the rules. -/
def Obligations.ShiftRowsRotatesTheRows : Prop :=
  ∀ s : Block,
    (∀ r c : Fin 4, (shiftRows s).get r c = s.get r (c + r) ∧ (invShiftRows s).get r c = s.get r (c - r)) ∧
      (List.finRange 16).map (shiftRows s).byte = [0, 5, 10, 15, 4, 9, 14, 3, 8, 13, 2, 7, 12, 1, 6, 11].map s.byte ∧
      (List.finRange 16).map (invShiftRows s).byte = [0, 13, 10, 7, 4, 1, 14, 11, 8, 5, 2, 15, 12, 9, 6, 3].map s.byte

/-- R136: MixColumns written out for one column; a column of four equal bytes maps to itself. -/
def Obligations.MixColumnsMultipliesByTheMatrix : Prop :=
  ∀ (s : Block) (c : Fin 4),
    (mixColumns s).get 0 c = xtime (s.get 0 c) ^^^ (xtime (s.get 1 c) ^^^ s.get 1 c) ^^^ s.get 2 c ^^^ s.get 3 c ∧
      (mixColumns s).get 1 c = s.get 0 c ^^^ xtime (s.get 1 c) ^^^ (xtime (s.get 2 c) ^^^ s.get 2 c) ^^^ s.get 3 c ∧
      (mixColumns s).get 2 c = s.get 0 c ^^^ s.get 1 c ^^^ xtime (s.get 2 c) ^^^ (xtime (s.get 3 c) ^^^ s.get 3 c) ∧
      (mixColumns s).get 3 c = (xtime (s.get 0 c) ^^^ s.get 0 c) ^^^ s.get 1 c ^^^ s.get 2 c ^^^ xtime (s.get 3 c) ∧
      ((∀ r, s.get r c = s.get 0 c) → ∀ r, (mixColumns s).get r c = s.get 0 c)

/-- R132, R135, R138: each transform and its inverse undo one another, in both orders. -/
def Obligations.TransformsAreInvertible : Prop :=
  ∀ s : Block,
    invSubBytes (subBytes s) = s ∧ subBytes (invSubBytes s) = s ∧ invShiftRows (shiftRows s) = s ∧
      shiftRows (invShiftRows s) = s ∧ invMixColumns (mixColumns s) = s ∧ mixColumns (invMixColumns s) = s

/-- R135, R138: ShiftRows commutes with SubBytes, likewise the inverses, and both column mixes are linear over add. -/
def Obligations.TransformsCommute : Prop :=
  ∀ s k : Block,
    shiftRows (subBytes s) = subBytes (shiftRows s) ∧ invShiftRows (invSubBytes s) = invSubBytes (invShiftRows s) ∧
      mixColumns (addRoundKey s k) = addRoundKey (mixColumns s) (mixColumns k) ∧
      invMixColumns (addRoundKey s k) = addRoundKey (invMixColumns s) (invMixColumns k)

/-! ## Key schedule -/

/-- R153, R154: the recurrence of KeyExpansion; the first four columns, which are round key 0, are the key. -/
def Obligations.KeyScheduleRecurrence : Prop :=
  ∀ key : Block,
    (∀ c : Fin 4, ksCol (keyExpansion key) c = key.col c) ∧ roundKey (keyExpansion key) 0 = key ∧
      ∀ i, 4 ≤ i → i < 44 →
        ksCol (keyExpansion key) i =
          (ksCol (keyExpansion key) (i - 4)).xor
            (if i % 4 = 0 then
              (subWord (rotWord (ksCol (keyExpansion key) (i - 1)))).xor (rcon ((i - 1) / 4))
            else ksCol (keyExpansion key) (i - 1))

/-- R150: column j of RCON holds 0x02^j in row 0 and zero elsewhere. -/
def Obligations.RoundConstantsArePowersOfX : Prop :=
  (rcon 0).w0 = 0x01 ∧ (∀ j < 9, (rcon (j + 1)).w0 = xtime (rcon j).w0) ∧
    ∀ j < 10, (rcon j).w1 = 0 ∧ (rcon j).w2 = 0 ∧ (rcon j).w3 = 0

/-! ## Cipher pipelines -/

/-- R29, R170, R171, R223 to R225: whatever the transient registers hold, the sequencer over STATE, PHASE and ROUND ends
with the result of the pipeline's function in STATE, PHASE = Output and ROUND = 10, and emits the records of the trace table
when tracing is enabled and none otherwise; BLK, CTRBLK, KSTREAM and TMPW are untouched. -/
def Obligations.SequencerComputesTheCipher : Prop :=
  ∀ (ks : Schedule) (en : Bool) (x : Block) (w : Working),
    runPipeline .forward ks en x w =
        ({ w with state := cipher x ks, phase := .output, round := 10 }, if en then forwardTrace x ks else []) ∧
      runPipeline .inverse ks en x w =
        ({ w with state := invCipher x ks, phase := .output, round := 10 }, if en then inverseTrace x ks else [])

/-- R173: for every block and every schedule the two ciphers undo one another. -/
def Obligations.CiphersAreInverse : Prop :=
  ∀ (x : Block) (ks : Schedule), invCipher (cipher x ks) ks = x ∧ cipher (invCipher x ks) ks = x

/-- R177: the known-answer vector. -/
def Obligations.KnownAnswerVector : Prop :=
  cipher (Block.ofBits 0x00112233445566778899aabbccddeeff)
        (keyExpansion (Block.ofBits 0x000102030405060708090a0b0c0d0e0f)) =
      Block.ofBits 0x69c4e0d86a7b0430d8cdb78070b4c55a ∧
    invCipher (Block.ofBits 0x69c4e0d86a7b0430d8cdb78070b4c55a)
        (keyExpansion (Block.ofBits 0x000102030405060708090a0b0c0d0e0f)) =
      Block.ofBits 0x00112233445566778899aabbccddeeff

/-! ## Unit commands -/

/-- R104, R105, R106: ADD, XTIME and MUL answer with the result byte and write no register. -/
def Obligations.FieldCommandsAnswer : Prop :=
  B2Words 0x10 .add ∧ B1Words 0x11 .xtime ∧ B2Words 0x12 .mul ∧
    ∀ (s : State) (a b : Byte), s.din = [] →
      exec (.add a b) s = .next (s.finish (okResponse (a ^^^ b) [] [])) ∧
        exec (.xtime a) s = .next (s.finish (okResponse (xtime a) [] [])) ∧
        exec (.mul a b) s = .next (s.finish (okResponse (multiply a b) [] []))

/-- R107: MADD adds two matrices of equal column counts and raises DimensionMismatch for unequal ones. -/
def Obligations.MaddAnswers : Prop :=
  (∀ w, opField w = 0x13 → AcceptedAs w (.madd (w.extractLsb' 12 12) (w.extractLsb' 0 12))) ∧
    ∀ (s : State) (na nb : BitVec 12) (a b : Matrix),
      a.length = na.toNat → b.length = nb.toNat → s.din = lanesOfMatrix a ++ lanesOfMatrix b →
        (na = nb →
          exec (.madd na nb) s =
            .next (s.finish (okResponse 0x00 (lanesOfMatrix (List.zipWith Col.xor a b)) []))) ∧
        (na ≠ nb → exec (.madd na nb) s = .next (s.finish (errorResponse .dimensionMismatch)))

/-- R123, R124: SBOX and ISBOX answer with the table entries SBOX[a] and ISBOX[a]: row a[7:4], column a[3:0]. -/
def Obligations.TableCommandsAnswer : Prop :=
  B1Words 0x20 .sbox ∧ B1Words 0x21 .isbox ∧
    ∀ (s : State) (a : Byte), s.din = [] →
      exec (.sbox a) s = .next (s.finish (okResponse (sbox a) [] [])) ∧
        exec (.isbox a) s = .next (s.finish (okResponse (isbox a) [] [])) ∧
        sbox a = rowByte (sboxRows.get (a.extractLsb' 4 4).toFin) (a.extractLsb' 0 4) ∧
        isbox a = rowByte (isboxRows.get (a.extractLsb' 4 4).toFin) (a.extractLsb' 0 4)

/-- R140 to R146: the seven transform commands answer with the transformed State. -/
def Obligations.TransformCommandsAnswer : Prop :=
  (NoImmWords 0x30 .subb ∧ NoImmWords 0x31 .isubb ∧ NoImmWords 0x32 .shrow ∧ NoImmWords 0x33 .ishrow ∧
      NoImmWords 0x34 .mixc ∧ NoImmWords 0x35 .imixc ∧ NoImmWords 0x36 .ark) ∧
    (∀ (s : State) (x : Block), s.din = x.lanes →
      exec .subb s = .next (s.finish (okResponse 0x00 (subBytes x).lanes [])) ∧
        exec .isubb s = .next (s.finish (okResponse 0x00 (invSubBytes x).lanes [])) ∧
        exec .shrow s = .next (s.finish (okResponse 0x00 (shiftRows x).lanes [])) ∧
        exec .ishrow s = .next (s.finish (okResponse 0x00 (invShiftRows x).lanes [])) ∧
        exec .mixc s = .next (s.finish (okResponse 0x00 (mixColumns x).lanes [])) ∧
        exec .imixc s = .next (s.finish (okResponse 0x00 (invMixColumns x).lanes []))) ∧
    ∀ (s : State) (x k : Block), s.din = x.lanes ++ k.lanes →
      exec .ark s = .next (s.finish (okResponse 0x00 (addRoundKey x k).lanes []))

/-- R158, R159: ROTW and SUBW answer with the rotated, respectively substituted, column. -/
def Obligations.WordCommandsAnswer : Prop :=
  NoImmWords 0x42 .rotw ∧ NoImmWords 0x43 .subw ∧
    ∀ (s : State) (w : Col), s.din = [w.toLane] →
      exec .rotw s = .next (s.finish (okResponse 0x00 [(⟨w.w1, w.w2, w.w3, w.w0⟩ : Col).toLane] [])) ∧
        exec .subw s =
          .next (s.finish (okResponse 0x00 [(⟨sbox w.w0, sbox w.w1, sbox w.w2, sbox w.w3⟩ : Col).toLane] []))

/-! ## Key and schedule commands -/

/-- R156: LDKEY writes KEY, KS and KEY_VALID in one step, whatever was loaded before, and nothing else. -/
def Obligations.LdkeyLoadsKeyAndSchedule : Prop :=
  NoImmWords 0x40 .ldkey ∧
    ∀ (s : State) (x : Block), s.din = x.lanes →
      exec .ldkey s =
        .next (({ s with core := { s.core with key := some ⟨x, keyExpansion x⟩ } } : State).finish
          (okResponse 0x00 [] []))

/-- R157: RDRK r answers with round key r, raises UninitializedKey with no key loaded, and is no legal word for r > 10 or
with a reserved bit set; RDRK 0 returns the key itself wherever KS is the schedule of KEY (which every step keeps). -/
def Obligations.RdrkReadsARoundKey : Prop :=
  (∀ w, opField w = 0x41 →
      (w.extractLsb' 4 20 = 0 → (w.extractLsb' 0 4).toNat ≤ 10 → AcceptedAs w (.rdrk (w.extractLsb' 0 4))) ∧
        (w.extractLsb' 4 20 ≠ 0 ∨ 10 < (w.extractLsb' 0 4).toNat → Rejected w)) ∧
    ∀ (s : State) (r : BitVec 4), s.din = [] → r.toNat ≤ 10 →
      (s.core.key = none → exec (.rdrk r) s = .next (s.finish (errorResponse .uninitializedKey))) ∧
        ∀ k, s.core.key = some k →
          exec (.rdrk r) s =
            .next (s.finish (okResponse 0x00
              [(ksCol k.ks (4 * r.toNat)).toLane, (ksCol k.ks (4 * r.toNat + 1)).toLane,
                (ksCol k.ks (4 * r.toNat + 2)).toLane, (ksCol k.ks (4 * r.toNat + 3)).toLane] [])) ∧
            (k.ks = keyExpansion k.key → r = 0 →
              exec (.rdrk r) s = .next (s.finish (okResponse 0x00 k.key.lanes [])))

/-! ## Pipeline commands -/

/-- R174, R175: CIPH and ICIPH answer with the cipher of the block under the loaded schedule, and with the 52 records when
tracing is enabled; with no key they raise UninitializedKey. MODE and IV are not read. -/
def Obligations.CiphAndIciphAnswer : Prop :=
  NoImmWords 0x50 .ciph ∧ NoImmWords 0x51 .iciph ∧
    ∀ (s : State) (x : Block), s.din = x.lanes →
      (s.core.key = none →
        exec .ciph s = .next (s.finish (errorResponse .uninitializedKey)) ∧
          exec .iciph s = .next (s.finish (errorResponse .uninitializedKey))) ∧
        ∀ k, s.core.key = some k →
          exec .ciph s =
              .next (s.finish (okResponse 0x00 (cipher x k.ks).lanes
                (if s.core.traceEn then forwardTrace x k.ks else []))) ∧
            exec .iciph s =
              .next (s.finish (okResponse 0x00 (invCipher x k.ks).lanes
                (if s.core.traceEn then inverseTrace x k.ks else [])))

/-! ## Mode layer -/

/-- R190: SETMODE checks the algorithm code, then the mode code, then writes MODE and nothing else. -/
def Obligations.SetmodeSelectsTheMode : Prop :=
  B2Words 0x60 .setmode ∧
    ∀ (s : State) (alg mode : Byte), s.din = [] →
      (alg ≠ 0x01 → exec (.setmode alg mode) s = .next (s.finish (errorResponse .malformedTransformationString))) ∧
        (alg = 0x01 → mode ≠ 0x01 → mode ≠ 0x02 →
          exec (.setmode alg mode) s = .next (s.finish (errorResponse .unsupportedMode))) ∧
        (alg = 0x01 → mode = 0x01 →
          exec (.setmode alg mode) s =
            .next (({ s with core := { s.core with mode := .ecb } } : State).finish (okResponse 0x00 [] []))) ∧
        (alg = 0x01 → mode = 0x02 →
          exec (.setmode alg mode) s =
            .next (({ s with core := { s.core with mode := .ctr } } : State).finish (okResponse 0x00 [] [])))

/-- R191: SETIV writes IV and nothing else, in any mode and without a key. -/
def Obligations.SetivLoadsTheIv : Prop :=
  NoImmWords 0x61 .setiv ∧
    ∀ (s : State) (v : Block), s.din = v.lanes →
      exec .setiv s = .next (({ s with core := { s.core with iv := v } } : State).finish (okResponse 0x00 [] []))

/-- R195: CTRB answers with the counter block IV + idx modulo 2^128 for idx ≥ 0 and raises NegativeCounterIndex when
imm[23] = 1. -/
def Obligations.CtrbBuildsTheCounterBlock : Prop :=
  WideWords 0x62 .ctrb ∧
    ∀ (s : State) (idx : BitVec 24), s.din = [] →
      (idx.getLsbD 23 = true → exec (.ctrb idx) s = .next (s.finish (errorResponse .negativeCounterIndex))) ∧
        (idx.getLsbD 23 = false →
          exec (.ctrb idx) s =
            .next (s.finish (okResponse 0x00 (Block.blk ((s.core.iv.int + idx.toNat) % 2 ^ 128)).lanes [])))

/-- R200, R201: ECBE and ECBD check the key, then the shape, then cipher, respectively decipher, every block on its own. The
first clauses pin the split of a payload into blocks and the reassembly that this and the later statements speak of (R56,
R193): block j lies in lanes 4j to 4j+3 of the payload, byte by byte. -/
def Obligations.EcbeAndEcbdAnswer : Prop :=
  ((∀ ls : List Lane, (blocksOf ls).length = ls.length / 4) ∧
      (∀ (ls : List Lane) (j : Nat) (b : Block), (blocksOf ls)[j]? = some b → BlockAt ls j b) ∧
      (∀ bs : List Block, (lanesOf bs).length = 4 * bs.length) ∧
      ∀ (bs : List Block) (j : Nat) (b : Block), bs[j]? = some b → BlockAt (lanesOf bs) j b) ∧
    WideWords 0x63 .ecbe ∧ WideWords 0x64 .ecbd ∧
    ∀ (s : State) (n : BitVec 24), s.din.length = n.toNat →
      (s.core.key = none →
        exec (.ecbe n) s = .next (s.finish (errorResponse .uninitializedKey)) ∧
          exec (.ecbd n) s = .next (s.finish (errorResponse .uninitializedKey))) ∧
        ∀ k, s.core.key = some k →
          (n.toNat = 0 ∨ n.toNat % 4 ≠ 0 →
            exec (.ecbe n) s = .next (s.finish (errorResponse .invalidBlockShape)) ∧
              exec (.ecbd n) s = .next (s.finish (errorResponse .invalidBlockShape))) ∧
            (n.toNat ≠ 0 → n.toNat % 4 = 0 →
              exec (.ecbe n) s =
                  .next (s.finish (okResponse 0x00 (lanesOf (ecbEncrypt (blocksOf s.din) k.ks))
                    (if s.core.traceEn then ecbEncryptTrace (blocksOf s.din) k.ks else []))) ∧
                exec (.ecbd n) s =
                  .next (s.finish (okResponse 0x00 (lanesOf (ecbDecrypt (blocksOf s.din) k.ks))
                    (if s.core.traceEn then ecbDecryptTrace (blocksOf s.din) k.ks else []))))

/-- R202: CTRX checks the key, then the shape, then adds the keystream that starts at the IV; MODE is not read and IV stays. -/
def Obligations.CtrxAnswers : Prop :=
  WideWords 0x65 .ctrx ∧
    ∀ (s : State) (n : BitVec 24), s.din.length = n.toNat →
      (s.core.key = none → exec (.ctrx n) s = .next (s.finish (errorResponse .uninitializedKey))) ∧
        ∀ k, s.core.key = some k →
          (n.toNat = 0 ∨ n.toNat % 4 ≠ 0 → exec (.ctrx n) s = .next (s.finish (errorResponse .invalidBlockShape))) ∧
            (n.toNat ≠ 0 → n.toNat % 4 = 0 →
              exec (.ctrx n) s =
                .next (s.finish (okResponse 0x00 (lanesOf (ctrCrypt (blocksOf s.din) s.core.iv k.ks))
                  (if s.core.traceEn then ctrTrace (n.toNat / 4) s.core.iv k.ks else []))))

/-- R204: ENC checks the key, then the shape; one block is ciphered directly, more are dispatched on MODE. -/
def Obligations.EncAnswers : Prop :=
  WideWords 0x66 .enc ∧
    ∀ (s : State) (n : BitVec 24), s.din.length = n.toNat →
      (s.core.key = none → exec (.enc n) s = .next (s.finish (errorResponse .uninitializedKey))) ∧
        ∀ k, s.core.key = some k →
          (n.toNat = 0 ∨ n.toNat % 4 ≠ 0 → exec (.enc n) s = .next (s.finish (errorResponse .invalidBlockShape))) ∧
            (n.toNat = 4 → ∀ x : Block, s.din = x.lanes →
              exec (.enc n) s =
                .next (s.finish (okResponse 0x00 (cipher x k.ks).lanes
                  (if s.core.traceEn then forwardTrace x k.ks else [])))) ∧
            (8 ≤ n.toNat → n.toNat % 4 = 0 →
              (s.core.mode = .ecb →
                exec (.enc n) s =
                  .next (s.finish (okResponse 0x00 (lanesOf (ecbEncrypt (blocksOf s.din) k.ks))
                    (if s.core.traceEn then ecbEncryptTrace (blocksOf s.din) k.ks else [])))) ∧
                (s.core.mode = .ctr →
                  exec (.enc n) s =
                    .next (s.finish (okResponse 0x00 (lanesOf (ctrCrypt (blocksOf s.din) s.core.iv k.ks))
                      (if s.core.traceEn then ctrTrace (n.toNat / 4) s.core.iv k.ks else [])))) ∧
                (s.core.mode = .noMode → exec (.enc n) s = .next (s.finish (errorResponse .unsupportedMode))))

/-- R205: DEC, with the inverse pipeline for one block and in ECB, and the same transform as ENC in CTR. -/
def Obligations.DecAnswers : Prop :=
  WideWords 0x67 .dec ∧
    ∀ (s : State) (n : BitVec 24), s.din.length = n.toNat →
      (s.core.key = none → exec (.dec n) s = .next (s.finish (errorResponse .uninitializedKey))) ∧
        ∀ k, s.core.key = some k →
          (n.toNat = 0 ∨ n.toNat % 4 ≠ 0 → exec (.dec n) s = .next (s.finish (errorResponse .invalidBlockShape))) ∧
            (n.toNat = 4 → ∀ x : Block, s.din = x.lanes →
              exec (.dec n) s =
                .next (s.finish (okResponse 0x00 (invCipher x k.ks).lanes
                  (if s.core.traceEn then inverseTrace x k.ks else [])))) ∧
            (8 ≤ n.toNat → n.toNat % 4 = 0 →
              (s.core.mode = .ecb →
                exec (.dec n) s =
                  .next (s.finish (okResponse 0x00 (lanesOf (ecbDecrypt (blocksOf s.din) k.ks))
                    (if s.core.traceEn then ecbDecryptTrace (blocksOf s.din) k.ks else [])))) ∧
                (s.core.mode = .ctr →
                  exec (.dec n) s =
                    .next (s.finish (okResponse 0x00 (lanesOf (ctrCrypt (blocksOf s.din) s.core.iv k.ks))
                      (if s.core.traceEn then ctrTrace (n.toNat / 4) s.core.iv k.ks else [])))) ∧
                (s.core.mode = .noMode → exec (.dec n) s = .next (s.finish (errorResponse .unsupportedMode))))

/-- R54, R194: `int` is the big-endian value of the sixteen bytes, `blk` its inverse, and the counter block adds the index
modulo 2^128; a negative index gives none. -/
def Obligations.CounterBlockAddsModulo : Prop :=
  (∀ b : Block, b.int = ((List.finRange 16).map fun k => (b.byte k).toNat * 256 ^ (15 - k.val)).sum ∧
      Block.blk b.int = b) ∧
    (∀ v < 2 ^ 128, (Block.blk v).int = v ∧
      ∀ k : Fin 16, ((Block.blk v).byte k).toNat = v / 256 ^ (15 - k.val) % 256) ∧
    ∀ (iv : Block) (idx : Int),
      (idx < 0 → ctrBlock iv idx = none) ∧
        (0 ≤ idx → ∃ b, ctrBlock iv idx = some b ∧ (b.int : Int) = (iv.int + idx) % 2 ^ 128)

/-- R199, R282: within one command no counter value is used twice. -/
def Obligations.CountersOfACommandDiffer : Prop :=
  ∀ (iv : Block) (j k : Nat), j < 4194304 → k < 4194304 → counterBlock iv j = counterBlock iv k → j = k

/-- R206 (a): DEC of the output of ENC returns the payload, for every key, MODE in ECB and CTR, IV and valid payload. -/
def Obligations.DecUndoesEnc : Prop :=
  ∀ (s : State) (n : BitVec 24) (k : KeyRegs),
    s.core.key = some k → s.core.mode ≠ .noMode → s.din.length = n.toNat → n.toNat ≠ 0 → n.toNat % 4 = 0 →
      ∃ d tr, exec (.enc n) s = .next (s.finish (okResponse 0x00 d tr)) ∧
        ∀ u : State, u.core = s.core → u.din = d →
          ∃ tr', exec (.dec n) u = .next (u.finish (okResponse 0x00 s.din tr'))

/-- R206 (b): CTRX of the output of CTRX returns the payload, for every IV and every valid payload. -/
def Obligations.CtrxUndoesItself : Prop :=
  ∀ (s : State) (n : BitVec 24) (k : KeyRegs),
    s.core.key = some k → s.din.length = n.toNat → n.toNat ≠ 0 → n.toNat % 4 = 0 →
      ∃ d tr, exec (.ctrx n) s = .next (s.finish (okResponse 0x00 d tr)) ∧
        ∀ u : State, u.core.key = s.core.key → u.core.iv = s.core.iv → u.din = d →
          ∃ tr', exec (.ctrx n) u = .next (u.finish (okResponse 0x00 s.din tr'))

/-- R206 (c): block j of the output of ECBE or ECBD depends on block j of the input and on the key schedule only. -/
def Obligations.EcbBlocksAreIndependent : Prop :=
  ∀ (f : BitVec 24 → Instr), f = Instr.ecbe ∨ f = Instr.ecbd →
    ∀ (s u : State) (n : BitVec 24) (k : KeyRegs) (j : Nat),
      s.core.key = some k → u.core.key = some k → s.din.length = n.toNat → u.din.length = n.toNat →
        n.toNat ≠ 0 → n.toNat % 4 = 0 → (blocksOf s.din)[j]? = (blocksOf u.din)[j]? →
          ∃ d d' tr tr', exec (f n) s = .next (s.finish (okResponse 0x00 d tr)) ∧
            exec (f n) u = .next (u.finish (okResponse 0x00 d' tr')) ∧ (blocksOf d)[j]? = (blocksOf d')[j]?

/-- R278: two CTR commands under the same key and IV use the same keystream: CTRX(a) ^ CTRX(b) = a ^ b. -/
def Obligations.KeystreamIsReused : Prop :=
  ∀ (s u : State) (n : BitVec 24) (k : KeyRegs),
    s.core.key = some k → u.core.key = some k → s.core.iv = u.core.iv →
      s.din.length = n.toNat → u.din.length = n.toNat → n.toNat ≠ 0 → n.toNat % 4 = 0 →
        ∃ d d' tr tr', exec (.ctrx n) s = .next (s.finish (okResponse 0x00 d tr)) ∧
          exec (.ctrx n) u = .next (u.finish (okResponse 0x00 d' tr')) ∧
          List.zipWith (· ^^^ ·) d d' = List.zipWith (· ^^^ ·) s.din u.din

/-- R203, R204, R277: with one block ENC answers the same whatever MODE and IV hold, and what CIPH answers; CTRX 4 answers
the block plus the cipher of the IV. -/
def Obligations.SingleBlockBypassesTheMode : Prop :=
  ∀ (s : State) (x : Block) (k : KeyRegs) (m : Mode) (v : Block),
    s.din = x.lanes → s.core.key = some k →
      ∃ r, exec (.enc 4) s = .next (s.finish r) ∧ exec .ciph s = .next (s.finish r) ∧
        exec (.enc 4) { s with core := { s.core with mode := m, iv := v } } =
          .next (({ s with core := { s.core with mode := m, iv := v } } : State).finish r) ∧
        ∃ tr, exec (.ctrx 4) s =
          .next (s.finish (okResponse 0x00 (addRoundKey x (cipher s.core.iv k.ks)).lanes tr))

/-! ## Trace flag -/

/-- R220, R221: TRON sets TRACE_EN, TROFF clears it, neither changes anything else, and no other command writes it. -/
def Obligations.TraceCommandsSetTheFlag : Prop :=
  NoImmWords 0x70 .tron ∧ NoImmWords 0x71 .troff ∧
    (∀ s : State, s.din = [] →
      exec .tron s =
          .next (({ s with core := { s.core with traceEn := true } } : State).finish (okResponse 0x00 [] [])) ∧
        exec .troff s =
          .next (({ s with core := { s.core with traceEn := false } } : State).finish (okResponse 0x00 [] []))) ∧
    ∀ (i : Instr) (s t : State), i ≠ .tron → i ≠ .troff → exec i s = .next t → t.core.traceEn = s.core.traceEn

/-! ## Errors -/

/-- R242: with no key loaded every command that reads KS raises UninitializedKey, status 0x01, ahead of every other check of
its own; no other command ever raises it; and once a key is loaded only reset brings the condition back. -/
def Obligations.UninitializedKeyComesFirst : Prop :=
  (∀ (i : Instr) (s : State), i.wellFormed = true → readsSchedule i = true → s.din.length = i.dinLen →
      s.core.key = none → exec i s = .next (s.finish (errorResponse .uninitializedKey))) ∧
    (∀ (i : Instr) (s t : State) (r : Response), exec i s = .next t → t.responses = s.responses ++ [r] →
      r.status = .error .uninitializedKey → readsSchedule i = true ∧ s.core.key = none) ∧
    (∀ s t : State, step s = .next t → (∀ rest, s.pending ≠ .reset :: rest) → s.core.key ≠ none → t.core.key ≠ none) ∧
    Status.code (.error .uninitializedKey) = 0x01

/-- R243: with a key loaded, a column count that is zero or no multiple of 4 raises InvalidBlockShape, status 0x02, in the
five counted commands, before the mode is looked at; no other command ever raises it. -/
def Obligations.InvalidBlockShapeOfCountedCommands : Prop :=
  (∀ (i : Instr) (s : State) (k : KeyRegs), i.format = .c → s.din.length = i.dinLen → s.core.key = some k →
      (i.dinLen = 0 ∨ i.dinLen % 4 ≠ 0) → exec i s = .next (s.finish (errorResponse .invalidBlockShape))) ∧
    (∀ (i : Instr) (s t : State) (r : Response), exec i s = .next t → t.responses = s.responses ++ [r] →
      r.status = .error .invalidBlockShape → i.format = .c ∧ (i.dinLen = 0 ∨ i.dinLen % 4 ≠ 0)) ∧
    Status.code (.error .invalidBlockShape) = 0x02

/-- R241: the status codes, no other value of which is produced, and which commands raise which kind. -/
def Obligations.ErrorKindsComeFromTheirCommands : Prop :=
  (∀ (i : Instr) (s t : State) (r : Response) (kind : ErrorKind), i.wellFormed = true → exec i s = .next t →
      t.responses = s.responses ++ [r] → r.status = .error kind → mayRaise i kind = true) ∧
    (∀ st : Status, st.code.toNat ≤ 0x06 ∨ st.code = 0xFF) ∧
    Status.code .ok = 0x00 ∧ ErrorKind.code .uninitializedKey = 0x01 ∧ ErrorKind.code .invalidBlockShape = 0x02 ∧
    ErrorKind.code .unsupportedMode = 0x03 ∧ ErrorKind.code .malformedTransformationString = 0x04 ∧
    ErrorKind.code .dimensionMismatch = 0x05 ∧ ErrorKind.code .negativeCounterIndex = 0x06 ∧
    ErrorKind.code .illegalCommand = 0xFF

/-! ## The host's side -/

/-- R81: every row of the table, for every operand: TRANSFORM of the two mode strings, of every other text after "AES128/"
and of every other string; IV with and without an operand; KEY; ENCRYPT and DECRYPT of whole blocks; RDKS; DEBUG on and off.
Blocks already read from their hexadecimal text as operands, and no expansion where the count does not fit the 24 bits of
R73, are the model's choice (assumption log 12). -/
def Obligations.PseudoInstructionsExpand : Prop :=
  ((Pseudo.transform "AES128/ECB").expand = some [⟨0x60000101, []⟩] ∧
      (Pseudo.transform "AES128/CTR").expand = some [⟨0x60000102, []⟩] ∧
      (∀ (t : String) (name : List Char), t.toList = "AES128/".toList ++ name →
        name ≠ "ECB".toList → name ≠ "CTR".toList → (Pseudo.transform t).expand = some [⟨0x60000100, []⟩]) ∧
      ∀ t : String, (∀ name : List Char, t.toList ≠ "AES128/".toList ++ name) →
        (Pseudo.transform t).expand = some [⟨0x60000000, []⟩]) ∧
    (∀ v : Block, (Pseudo.iv (some v)).expand = some [⟨0x61000000, v.lanes⟩]) ∧
    (Pseudo.iv none).expand = some [⟨0x61000000, [0, 0, 0, 0]⟩] ∧
    (∀ k : Block, (Pseudo.key k).expand = some [⟨0x40000000, k.lanes⟩]) ∧
    (∀ data : List Block,
      (4 * data.length < 2 ^ 24 →
        (Pseudo.encrypt data).expand = some [⟨wordOf 0x66 (BitVec.ofNat 24 (4 * data.length)), lanesOf data⟩] ∧
          (Pseudo.decrypt data).expand = some [⟨wordOf 0x67 (BitVec.ofNat 24 (4 * data.length)), lanesOf data⟩]) ∧
        (2 ^ 24 ≤ 4 * data.length → (Pseudo.encrypt data).expand = none ∧ (Pseudo.decrypt data).expand = none)) ∧
    Pseudo.rdks.expand =
      some [⟨0x41000000, []⟩, ⟨0x41000001, []⟩, ⟨0x41000002, []⟩, ⟨0x41000003, []⟩, ⟨0x41000004, []⟩, ⟨0x41000005, []⟩,
        ⟨0x41000006, []⟩, ⟨0x41000007, []⟩, ⟨0x41000008, []⟩, ⟨0x41000009, []⟩, ⟨0x4100000A, []⟩] ∧
    (Pseudo.debug true).expand = some [⟨0x70000000, []⟩] ∧ (Pseudo.debug false).expand = some [⟨0x71000000, []⟩]
end

