-- ==== Sys2Proof/Laws/Decode.lean ====
section
/-! SUPPORT. The bits of an encoded word, and the two fields of a word. -/

namespace Sys2Proof

theorem getLsbD_wordOf (op : Byte) (imm : BitVec 24) (i : Nat) :
    (wordOf op imm).getLsbD i = if i < 24 then imm.getLsbD i else op.getLsbD (i - 24) := by
  rw [wordOf, BitVec.getLsbD_append]

theorem opField_wordOf (op : Byte) (imm : BitVec 24) : opField (wordOf op imm) = op := by
  apply BitVec.eq_of_getLsbD_eq
  intro i hi
  simp only [opField, BitVec.getLsbD_extractLsb', getLsbD_wordOf, hi, decide_true, Bool.true_and]
  rw [if_neg (by omega)]
  congr 1
  omega

theorem immField_wordOf (op : Byte) (imm : BitVec 24) : immField (wordOf op imm) = imm := by
  apply BitVec.eq_of_getLsbD_eq
  intro i hi
  simp [immField, getLsbD_wordOf, hi]

/-- A word is its two fields. -/
theorem wordOf_fields (w : CommandWord) : wordOf (opField w) (immField w) = w := by
  apply BitVec.eq_of_getLsbD_eq
  intro i hi
  simp only [getLsbD_wordOf, opField, immField, BitVec.getLsbD_extractLsb']
  split
  · simp [*]
  · rw [decide_eq_true (by omega), Bool.true_and]
    congr 1
    omega

theorem getLsbD_immB1 (a : Byte) (i : Nat) : (immB1 a).getLsbD i = (decide (i < 8) && a.getLsbD i) := by
  rw [immB1, BitVec.getLsbD_append]
  split <;> simp [*]

theorem getLsbD_immB2 (a b : Byte) (i : Nat) :
    (immB2 a b).getLsbD i = if i < 8 then b.getLsbD i else decide (i < 16) && a.getLsbD (i - 8) := by
  rw [immB2, BitVec.getLsbD_append, BitVec.getLsbD_append]
  by_cases h8 : i < 8
  · simp [h8, show i < 16 by omega]
  · by_cases h16 : i < 16 <;> simp [h8, h16]

theorem getLsbD_immR (r : BitVec 4) (i : Nat) : (immR r).getLsbD i = (decide (i < 4) && r.getLsbD i) := by
  rw [immR, BitVec.getLsbD_append]
  split <;> simp [*]

theorem getLsbD_immM2 (na nb : BitVec 12) (i : Nat) :
    (immM2 na nb).getLsbD i = if i < 12 then nb.getLsbD i else na.getLsbD (i - 12) := by
  rw [immM2, BitVec.getLsbD_append]

end Sys2Proof
end

