-- ==== Sys2Proof/Laws/Layout.lean ====
section
/-! SUPPORT. The conversions of `Machine/Layout.lean` undo one another, and what they give where they are read. -/

namespace Sys2Proof

/-! ## Columns -/

theorem Col.ext {a b : Col} (h0 : a.w0 = b.w0) (h1 : a.w1 = b.w1) (h2 : a.w2 = b.w2) (h3 : a.w3 = b.w3) : a = b := by
  cases a; cases b; simp_all

@[simp] theorem Col.ofLane_toLane (w : Col) : Col.ofLane w.toLane = w := by
  apply Col.ext <;> (apply BitVec.eq_of_getLsbD_eq; intro i hi)
  all_goals
    simp only [Col.ofLane, Col.toLane, BitVec.getLsbD_append, BitVec.getLsbD_extractLsb', hi, decide_true,
      Bool.true_and]
    repeat' split
    all_goals first | omega | (congr 1; omega)

@[simp] theorem Col.toLane_ofLane (v : Lane) : (Col.ofLane v).toLane = v := by
  apply BitVec.eq_of_getLsbD_eq
  intro i hi
  simp only [Col.ofLane, Col.toLane, BitVec.getLsbD_append, BitVec.getLsbD_extractLsb']
  repeat' split
  all_goals
    rw [decide_eq_true (by omega), Bool.true_and]
    congr 1
    omega

theorem Col.toLane_injective {a b : Col} (h : a.toLane = b.toLane) : a = b := by
  rw [← Col.ofLane_toLane a, h, Col.ofLane_toLane]

@[simp] theorem Col.row_ofFn (f : Fin 4 → Byte) (r : Fin 4) : (Col.ofFn f).row r = f r := by
  match r with
  | 0 => rfl
  | 1 => rfl
  | 2 => rfl
  | 3 => rfl

theorem Col.ext_row {a b : Col} (h : ∀ r, a.row r = b.row r) : a = b := Col.ext (h 0) (h 1) (h 2) (h 3)

theorem Col.row_xor (a b : Col) (r : Fin 4) : (a.xor b).row r = a.row r ^^^ b.row r := by
  match r with
  | 0 => rfl
  | 1 => rfl
  | 2 => rfl
  | 3 => rfl

/-! ## Blocks -/

theorem Block.ext {a b : Block} (h0 : a.c0 = b.c0) (h1 : a.c1 = b.c1) (h2 : a.c2 = b.c2) (h3 : a.c3 = b.c3) :
    a = b := by
  cases a; cases b; simp_all

@[simp] theorem Block.get_ofFn (f : Fin 4 → Fin 4 → Byte) (r c : Fin 4) : (Block.ofFn f).get r c = f r c := by
  match c with
  | 0 => exact Col.row_ofFn (fun r => f r 0) r
  | 1 => exact Col.row_ofFn (fun r => f r 1) r
  | 2 => exact Col.row_ofFn (fun r => f r 2) r
  | 3 => exact Col.row_ofFn (fun r => f r 3) r

theorem Block.ext_get {a b : Block} (h : ∀ r c, a.get r c = b.get r c) : a = b :=
  Block.ext (Col.ext_row fun r => h r 0) (Col.ext_row fun r => h r 1) (Col.ext_row fun r => h r 2)
    (Col.ext_row fun r => h r 3)

@[simp] theorem Block.get_map (f : Byte → Byte) (b : Block) (r c : Fin 4) : (b.map f).get r c = f (b.get r c) :=
  Block.get_ofFn _ r c

@[simp] theorem Block.byte_map (f : Byte → Byte) (b : Block) (k : Fin 16) : (b.map f).byte k = f (b.byte k) :=
  Block.get_map f b _ _

@[simp] theorem Block.length_lanes (b : Block) : b.lanes.length = 4 := rfl

@[simp] theorem Block.lanes_ofLanes (l0 l1 l2 l3 : Lane) : (Block.ofLanes l0 l1 l2 l3).lanes = [l0, l1, l2, l3] := by
  simp [Block.lanes, Block.ofLanes]

theorem Block.lanes_injective {a b : Block} (h : a.lanes = b.lanes) : a = b := by
  simp only [Block.lanes, List.cons.injEq, and_true] at h
  exact Block.ext (Col.toLane_injective h.1) (Col.toLane_injective h.2.1) (Col.toLane_injective h.2.2.1)
    (Col.toLane_injective h.2.2.2)

/-- The four lanes of a 128-bit vector. -/
theorem extract_lanes (a b c d : Lane) :
    ((a ++ b) ++ (c ++ d) : BitVec 128).extractLsb' 96 32 = a ∧
      ((a ++ b) ++ (c ++ d) : BitVec 128).extractLsb' 64 32 = b ∧
      ((a ++ b) ++ (c ++ d) : BitVec 128).extractLsb' 32 32 = c ∧
      ((a ++ b) ++ (c ++ d) : BitVec 128).extractLsb' 0 32 = d := by
  refine ⟨?_, ?_, ?_, ?_⟩ <;> (apply BitVec.eq_of_getLsbD_eq; intro i hi)
  all_goals
    simp only [BitVec.getLsbD_append, BitVec.getLsbD_extractLsb', hi, decide_true, Bool.true_and]
    repeat' split
    all_goals first | omega | (congr 1; omega)

@[simp] theorem Block.ofBits_toBits (b : Block) : Block.ofBits b.toBits = b := by
  obtain ⟨h0, h1, h2, h3⟩ := extract_lanes b.c0.toLane b.c1.toLane b.c2.toLane b.c3.toLane
  simp only [Block.ofBits, Block.toBits, h0, h1, h2, h3, Block.ofLanes, Col.ofLane_toLane]

@[simp] theorem Block.toBits_ofBits (v : BitVec 128) : (Block.ofBits v).toBits = v := by
  apply BitVec.eq_of_getLsbD_eq
  intro i hi
  simp only [Block.ofBits, Block.ofLanes, Block.toBits, Col.toLane_ofLane, BitVec.getLsbD_append,
    BitVec.getLsbD_extractLsb']
  repeat' split
  all_goals
    rw [decide_eq_true (by omega), Bool.true_and]
    congr 1
    omega

/-! ## Payloads -/

@[simp] theorem blocksOf_nil : blocksOf [] = [] := rfl

@[simp] theorem blocksOf_cons (l0 l1 l2 l3 : Lane) (rest : List Lane) :
    blocksOf (l0 :: l1 :: l2 :: l3 :: rest) = Block.ofLanes l0 l1 l2 l3 :: blocksOf rest := rfl

theorem blocksOf_lanes_append (b : Block) (ls : List Lane) : blocksOf (b.lanes ++ ls) = b :: blocksOf ls := by
  simp [Block.lanes, Block.ofLanes]

@[simp] theorem lanesOf_nil : lanesOf [] = [] := rfl

@[simp] theorem lanesOf_cons (b : Block) (bs : List Block) : lanesOf (b :: bs) = b.lanes ++ lanesOf bs := rfl

@[simp] theorem blocksOf_lanesOf (bs : List Block) : blocksOf (lanesOf bs) = bs := by
  induction bs with
  | nil => rfl
  | cons b bs ih => rw [lanesOf_cons, blocksOf_lanes_append, ih]

@[simp] theorem length_lanesOf (bs : List Block) : (lanesOf bs).length = 4 * bs.length := by
  induction bs with
  | nil => rfl
  | cons b bs ih => simp [ih]; omega

/-- A payload of n whole blocks is the payload of some n blocks. -/
theorem exists_lanesOf {n : Nat} {ls : List Lane} (h : ls.length = 4 * n) : ∃ bs, bs.length = n ∧ ls = lanesOf bs := by
  induction n generalizing ls with
  | zero => exact ⟨[], rfl, by simpa using h⟩
  | succ n ih =>
    match ls, h with
    | l0 :: l1 :: l2 :: l3 :: rest, h =>
      obtain ⟨bs, hb, rfl⟩ := ih (ls := rest) (by simp at h; omega)
      exact ⟨Block.ofLanes l0 l1 l2 l3 :: bs, by simp [hb], by simp⟩

/-! ## Key-schedule columns -/

theorem ksCol_of_lt (ks : Schedule) {i : Nat} (h : i < 44) : ksCol ks i = ks[i] := by simp [ksCol, h]

theorem ksCol_set_self (ks : Schedule) {i : Nat} (h : i < 44) (w : Col) : ksCol (ks.setIfInBounds i w) i = w := by
  simp [ksCol, h]

theorem ksCol_set_other (ks : Schedule) {i j : Nat} (h : i ≠ j) (w : Col) :
    ksCol (ks.setIfInBounds i w) j = ksCol ks j := by
  unfold ksCol
  split
  · rw [Vector.getElem_setIfInBounds_ne _ h]
  · rfl

end Sys2Proof
end

