-- ==== Sys2Proof/Laws/State.lean ====
section
/-! SUPPORT. One lemma per field per update of the state records, each true by unfolding, so that no proof unfolds a record
update. -/

namespace Sys2Proof.Machine

/-! ## State.finish -/

@[simp] theorem State.finish_core (s : State) (r : Response) : (s.finish r).core = s.core := rfl

@[simp] theorem State.finish_work (s : State) (r : Response) : (s.finish r).work = Working.free s.freeCount := rfl

@[simp] theorem State.finish_freeCount (s : State) (r : Response) : (s.finish r).freeCount = s.freeCount + 1 := rfl

@[simp] theorem State.finish_pending (s : State) (r : Response) : (s.finish r).pending = s.pending := rfl

@[simp] theorem State.finish_din (s : State) (r : Response) : (s.finish r).din = [] := rfl

@[simp] theorem State.finish_responses (s : State) (r : Response) : (s.finish r).responses = s.responses ++ [r] := rfl

/-! ## State.accept -/

@[simp] theorem State.accept_core (s : State) (c : Command) (rest : List HostEvent) : (s.accept c rest).core = s.core := rfl

@[simp] theorem State.accept_work (s : State) (c : Command) (rest : List HostEvent) : (s.accept c rest).work = s.work := rfl

@[simp] theorem State.accept_freeCount (s : State) (c : Command) (rest : List HostEvent) : (s.accept c rest).freeCount = s.freeCount := rfl

@[simp] theorem State.accept_pending (s : State) (c : Command) (rest : List HostEvent) : (s.accept c rest).pending = rest := rfl

@[simp] theorem State.accept_din (s : State) (c : Command) (rest : List HostEvent) : (s.accept c rest).din = c.din := rfl

@[simp] theorem State.accept_responses (s : State) (c : Command) (rest : List HostEvent) : (s.accept c rest).responses = s.responses := rfl

/-! ## State.resetEvent -/

@[simp] theorem State.resetEvent_core (s : State) (rest : List HostEvent) : (s.resetEvent rest).core = CoreState.reset := rfl

@[simp] theorem State.resetEvent_work (s : State) (rest : List HostEvent) : (s.resetEvent rest).work = Working.reset := rfl

@[simp] theorem State.resetEvent_freeCount (s : State) (rest : List HostEvent) : (s.resetEvent rest).freeCount = s.freeCount := rfl

@[simp] theorem State.resetEvent_pending (s : State) (rest : List HostEvent) : (s.resetEvent rest).pending = rest := rfl

@[simp] theorem State.resetEvent_din (s : State) (rest : List HostEvent) : (s.resetEvent rest).din = [] := rfl

@[simp] theorem State.resetEvent_responses (s : State) (rest : List HostEvent) : (s.resetEvent rest).responses = s.responses := rfl

/-! ## State.present -/

@[simp] theorem State.present_core (s : State) (c : Command) : (s.present c).core = s.core := rfl

@[simp] theorem State.present_work (s : State) (c : Command) : (s.present c).work = s.work := rfl

@[simp] theorem State.present_freeCount (s : State) (c : Command) : (s.present c).freeCount = s.freeCount := rfl

@[simp] theorem State.present_pending (s : State) (c : Command) : (s.present c).pending = .command c :: s.pending := rfl

@[simp] theorem State.present_din (s : State) (c : Command) : (s.present c).din = s.din := rfl

@[simp] theorem State.present_responses (s : State) (c : Command) : (s.present c).responses = s.responses := rfl

/-! ## CoreState.loadKey -/

@[simp] theorem CoreState.loadKey_key (c : CoreState) (k : Block) (ks : Schedule) : (c.loadKey k ks).key = some { key := k, ks := ks } := rfl

@[simp] theorem CoreState.loadKey_mode (c : CoreState) (k : Block) (ks : Schedule) : (c.loadKey k ks).mode = c.mode := rfl

@[simp] theorem CoreState.loadKey_iv (c : CoreState) (k : Block) (ks : Schedule) : (c.loadKey k ks).iv = c.iv := rfl

@[simp] theorem CoreState.loadKey_traceEn (c : CoreState) (k : Block) (ks : Schedule) : (c.loadKey k ks).traceEn = c.traceEn := rfl

/-! ## CoreState.setMode -/

@[simp] theorem CoreState.setMode_key (c : CoreState) (m : Mode) : (c.setMode m).key = c.key := rfl

@[simp] theorem CoreState.setMode_mode (c : CoreState) (m : Mode) : (c.setMode m).mode = m := rfl

@[simp] theorem CoreState.setMode_iv (c : CoreState) (m : Mode) : (c.setMode m).iv = c.iv := rfl

@[simp] theorem CoreState.setMode_traceEn (c : CoreState) (m : Mode) : (c.setMode m).traceEn = c.traceEn := rfl

/-! ## CoreState.setIv -/

@[simp] theorem CoreState.setIv_key (c : CoreState) (v : Block) : (c.setIv v).key = c.key := rfl

@[simp] theorem CoreState.setIv_mode (c : CoreState) (v : Block) : (c.setIv v).mode = c.mode := rfl

@[simp] theorem CoreState.setIv_iv (c : CoreState) (v : Block) : (c.setIv v).iv = v := rfl

@[simp] theorem CoreState.setIv_traceEn (c : CoreState) (v : Block) : (c.setIv v).traceEn = c.traceEn := rfl

/-! ## CoreState.setTraceEn -/

@[simp] theorem CoreState.setTraceEn_key (c : CoreState) (b : Bool) : (c.setTraceEn b).key = c.key := rfl

@[simp] theorem CoreState.setTraceEn_mode (c : CoreState) (b : Bool) : (c.setTraceEn b).mode = c.mode := rfl

@[simp] theorem CoreState.setTraceEn_iv (c : CoreState) (b : Bool) : (c.setTraceEn b).iv = c.iv := rfl

@[simp] theorem CoreState.setTraceEn_traceEn (c : CoreState) (b : Bool) : (c.setTraceEn b).traceEn = b := rfl

/-! ## Working.load -/

@[simp] theorem Working.load_state (w : Working) (x : Block) : (w.load x).state = x := rfl

@[simp] theorem Working.load_phase (w : Working) (x : Block) : (w.load x).phase = .initial := rfl

@[simp] theorem Working.load_round (w : Working) (x : Block) : (w.load x).round = 0 := rfl

@[simp] theorem Working.load_blk (w : Working) (x : Block) : (w.load x).blk = w.blk := rfl

@[simp] theorem Working.load_ctrblk (w : Working) (x : Block) : (w.load x).ctrblk = w.ctrblk := rfl

@[simp] theorem Working.load_kstream (w : Working) (x : Block) : (w.load x).kstream = w.kstream := rfl

@[simp] theorem Working.load_tmpw (w : Working) (x : Block) : (w.load x).tmpw = w.tmpw := rfl

/-! ## Working.toRounds -/

@[simp] theorem Working.toRounds_state (w : Working) (x : Block) : (w.toRounds x).state = x := rfl

@[simp] theorem Working.toRounds_phase (w : Working) (x : Block) : (w.toRounds x).phase = .round := rfl

@[simp] theorem Working.toRounds_round (w : Working) (x : Block) : (w.toRounds x).round = 1 := rfl

@[simp] theorem Working.toRounds_blk (w : Working) (x : Block) : (w.toRounds x).blk = w.blk := rfl

@[simp] theorem Working.toRounds_ctrblk (w : Working) (x : Block) : (w.toRounds x).ctrblk = w.ctrblk := rfl

@[simp] theorem Working.toRounds_kstream (w : Working) (x : Block) : (w.toRounds x).kstream = w.kstream := rfl

@[simp] theorem Working.toRounds_tmpw (w : Working) (x : Block) : (w.toRounds x).tmpw = w.tmpw := rfl

/-! ## Working.nextRound -/

@[simp] theorem Working.nextRound_state (w : Working) (x : Block) : (w.nextRound x).state = x := rfl

@[simp] theorem Working.nextRound_phase (w : Working) (x : Block) : (w.nextRound x).phase = if w.round + 1 = 10 then .finalRound else .round := rfl

@[simp] theorem Working.nextRound_round (w : Working) (x : Block) : (w.nextRound x).round = w.round + 1 := rfl

@[simp] theorem Working.nextRound_blk (w : Working) (x : Block) : (w.nextRound x).blk = w.blk := rfl

@[simp] theorem Working.nextRound_ctrblk (w : Working) (x : Block) : (w.nextRound x).ctrblk = w.ctrblk := rfl

@[simp] theorem Working.nextRound_kstream (w : Working) (x : Block) : (w.nextRound x).kstream = w.kstream := rfl

@[simp] theorem Working.nextRound_tmpw (w : Working) (x : Block) : (w.nextRound x).tmpw = w.tmpw := rfl

/-! ## Working.toOutput -/

@[simp] theorem Working.toOutput_state (w : Working) (x : Block) : (w.toOutput x).state = x := rfl

@[simp] theorem Working.toOutput_phase (w : Working) (x : Block) : (w.toOutput x).phase = .output := rfl

@[simp] theorem Working.toOutput_round (w : Working) (x : Block) : (w.toOutput x).round = w.round := rfl

@[simp] theorem Working.toOutput_blk (w : Working) (x : Block) : (w.toOutput x).blk = w.blk := rfl

@[simp] theorem Working.toOutput_ctrblk (w : Working) (x : Block) : (w.toOutput x).ctrblk = w.ctrblk := rfl

@[simp] theorem Working.toOutput_kstream (w : Working) (x : Block) : (w.toOutput x).kstream = w.kstream := rfl

@[simp] theorem Working.toOutput_tmpw (w : Working) (x : Block) : (w.toOutput x).tmpw = w.tmpw := rfl

/-! ## Working.nextBlk -/

@[simp] theorem Working.nextBlk_state (w : Working) : (w.nextBlk).state = w.state := rfl

@[simp] theorem Working.nextBlk_phase (w : Working) : (w.nextBlk).phase = w.phase := rfl

@[simp] theorem Working.nextBlk_round (w : Working) : (w.nextBlk).round = w.round := rfl

@[simp] theorem Working.nextBlk_blk (w : Working) : (w.nextBlk).blk = w.blk + 1 := rfl

@[simp] theorem Working.nextBlk_ctrblk (w : Working) : (w.nextBlk).ctrblk = w.ctrblk := rfl

@[simp] theorem Working.nextBlk_kstream (w : Working) : (w.nextBlk).kstream = w.kstream := rfl

@[simp] theorem Working.nextBlk_tmpw (w : Working) : (w.nextBlk).tmpw = w.tmpw := rfl

/-! ## Reset -/

@[simp] theorem State.reset_core : State.reset.core = CoreState.reset := rfl

@[simp] theorem State.reset_responses : State.reset.responses = [] := rfl

@[simp] theorem CoreState.reset_key : CoreState.reset.key = none := rfl


end Sys2Proof.Machine
end

