-- ==== Sys2Proof/Laws/Ops.lean ====
section
/-! SUPPORT. For each shared operation, once, everything it can do: what it answers where its check holds, and, inverted, what
must hold where it answers a next state. Later proofs cite these and do not unfold the operations. -/

namespace Sys2Proof.Machine

/-! ## Ends -/

theorem respond_eq (rb : Byte) (dout : List Lane) (trace : List TraceRecord) (s : State) :
    respond rb dout trace s = .next (s.finish (okResponse rb dout trace)) := rfl

theorem raise_eq (k : ErrorKind) (s : State) : raise k s = .next (s.finish (errorResponse k)) := rfl

/-- Two commands that differ only in the transient registers end in the same state: `finish` writes them. -/
theorem finish_work (s : State) (w : Working) (r : Response) : ({ s with work := w } : State).finish r = s.finish r := rfl

/-! ## Operand forms -/

theorem withNoPayload_of_nil {s : State} (h : s.din = []) (go : Answer) : withNoPayload s go = go := by
  simp [withNoPayload, h]

theorem withNoPayload_next {s t : State} {go : Answer} (h : withNoPayload s go = .next t) :
    s.din = [] ∧ go = .next t := by
  unfold withNoPayload at h
  split at h
  · exact ⟨‹_›, h⟩
  · simp at h

theorem withCol_of_lane {s : State} {l : Lane} (h : s.din = [l]) (go : Col → Answer) :
    withCol s go = go (Col.ofLane l) := by
  simp [withCol, h]

theorem withCol_next {s t : State} {go : Col → Answer} (h : withCol s go = .next t) :
    ∃ w : Col, s.din = [w.toLane] ∧ go w = .next t := by
  unfold withCol at h
  split at h
  · exact ⟨_, by simpa using ‹s.din = _›, h⟩
  · simp at h

theorem withBlock_of_lanes {s : State} {x : Block} (h : s.din = x.lanes) (go : Block → Answer) :
    withBlock s go = go x := by
  simp [withBlock, h, Block.lanes, Block.ofLanes]

theorem withBlock_next {s t : State} {go : Block → Answer} (h : withBlock s go = .next t) :
    ∃ x : Block, s.din = x.lanes ∧ go x = .next t := by
  unfold withBlock at h
  split at h
  · exact ⟨_, by simpa using ‹s.din = _›, h⟩
  · simp at h

theorem withTwoBlocks_of_lanes {s : State} {x k : Block} (h : s.din = x.lanes ++ k.lanes)
    (go : Block → Block → Answer) : withTwoBlocks s go = go x k := by
  simp [withTwoBlocks, h, Block.lanes, Block.ofLanes]

theorem withTwoBlocks_next {s t : State} {go : Block → Block → Answer} (h : withTwoBlocks s go = .next t) :
    ∃ x k : Block, s.din = x.lanes ++ k.lanes ∧ go x k = .next t := by
  unfold withTwoBlocks at h
  split at h
  · exact ⟨_, _, by simpa using ‹s.din = _›, h⟩
  · simp at h

theorem withLanes_of_length {s : State} {n : Nat} (h : s.din.length = n) (go : List Lane → Answer) :
    withLanes n s go = go s.din := by
  simp [withLanes, h]

theorem withLanes_next {s t : State} {n : Nat} {go : List Lane → Answer} (h : withLanes n s go = .next t) :
    s.din.length = n ∧ go s.din = .next t := by
  unfold withLanes at h
  split at h
  · exact ⟨‹_›, h⟩
  · simp at h

/-! ## Checks -/

theorem withSchedule_of_some {s : State} {k : KeyRegs} (h : s.core.key = some k) (go : Schedule → Answer) :
    withSchedule s go = go k.ks := by
  simp [withSchedule, h]

theorem withSchedule_of_none {s : State} (h : s.core.key = none) (go : Schedule → Answer) :
    withSchedule s go = raise .uninitializedKey s := by
  simp [withSchedule, h]

/-- The key check either raises UninitializedKey or goes on with the schedule. -/
theorem withSchedule_cases (s : State) (go : Schedule → Answer) :
    (s.core.key = none ∧ withSchedule s go = raise .uninitializedKey s) ∨
      ∃ k, s.core.key = some k ∧ withSchedule s go = go k.ks := by
  cases h : s.core.key with
  | none => exact .inl ⟨rfl, withSchedule_of_none h go⟩
  | some k => exact .inr ⟨k, rfl, withSchedule_of_some h go⟩

theorem withShape_of_whole {n : Nat} (h0 : n ≠ 0) (h4 : n % 4 = 0) (s : State) (go : Answer) :
    withShape n s go = go := by
  simp [withShape, h0, h4]

theorem withShape_of_bad {n : Nat} (h : n = 0 ∨ n % 4 ≠ 0) (s : State) (go : Answer) :
    withShape n s go = raise .invalidBlockShape s := by
  simp only [withShape, if_pos h]

/-- The shape check either raises InvalidBlockShape or goes on. -/
theorem withShape_cases (n : Nat) (s : State) (go : Answer) :
    ((n = 0 ∨ n % 4 ≠ 0) ∧ withShape n s go = raise .invalidBlockShape s) ∨
      (n ≠ 0 ∧ n % 4 = 0 ∧ withShape n s go = go) := by
  by_cases h : n = 0 ∨ n % 4 ≠ 0
  · exact .inl ⟨h, withShape_of_bad h s go⟩
  · obtain ⟨h0, h4⟩ := not_or.mp h
    exact .inr ⟨h0, not_not.mp h4, withShape_of_whole h0 (not_not.mp h4) s go⟩

/-! ## Tracing -/

theorem emit_true (round : BitVec 4) (label : Label) (value : Block) :
    emit true round label value = [{ round := round, label := label, value := value }] := rfl

theorem emit_false (round : BitVec 4) (label : Label) (value : Block) : emit false round label value = [] := rfl

/-! ## Fetching -/

theorem illegalWord_of_nil {s : State} (h : s.din = []) : illegalWord s = raise .illegalCommand s :=
  withNoPayload_of_nil h _

theorem illegalWord_next {s t : State} (h : illegalWord s = .next t) :
    s.din = [] ∧ t = s.finish (errorResponse .illegalCommand) := by
  obtain ⟨hd, hr⟩ := withNoPayload_next h
  exact ⟨hd, by simpa [raise, errorResponse] using hr.symm⟩

theorem step_of_idle {s : State} (h : s.pending = []) : step s = .next s := by
  simp [step, fetch, h, idle]

theorem step_of_reset {s : State} {rest : List HostEvent} (h : s.pending = .reset :: rest) :
    step s = .next (s.resetEvent rest) := by
  simp [step, fetch, h]

theorem step_of_illegal {s : State} {c : Command} {rest : List HostEvent} {why : Illegal}
    (h : s.pending = .command c :: rest) (hw : decode c.word = .illegal why) :
    step s = illegalWord (s.accept c rest) := by
  simp [step, fetch, h, hw]

/-- Everything a step can do. -/
theorem step_cases (s : State) :
    (s.pending = [] ∧ step s = .next s) ∨
      (∃ rest, s.pending = .reset :: rest ∧ step s = .next (s.resetEvent rest)) ∨
      (∃ c rest why, s.pending = .command c :: rest ∧ decode c.word = .illegal why ∧
        step s = illegalWord (s.accept c rest)) ∨
      ∃ c rest i, s.pending = .command c :: rest ∧ decode c.word = .ok i ∧ step s = exec i (s.accept c rest) := by
  rcases h : s.pending with _ | ⟨_ | _, rest⟩
  · exact .inl ⟨rfl, step_of_idle h⟩
  · rename_i c
    rcases hw : decode c.word with i | why
    · exact .inr (.inr (.inr ⟨c, rest, i, rfl, hw, by simp [step, fetch, h, hw]⟩))
    · exact .inr (.inr (.inl ⟨c, rest, why, rfl, hw, step_of_illegal h hw⟩))
  · exact .inr (.inl ⟨rest, rfl, step_of_reset h⟩)

end Sys2Proof.Machine
end

