-- ==== Sys2Proof/Laws/PerInstr.lean ====
section
/-! SUPPORT. Statements about every constructor of `Instr`, one lemma each.
Family `TableRow`: the word that `encode` gives belongs to the row of `spec/opcode_table.json` that has the instruction's
mnemonic, and the row has the instruction's format (`30_encoding.md` rules R72 and R74). -/

namespace Sys2Proof.Laws.TableRow

/-- The encoded word lies in the instruction's own row of the table. -/
def Statement (i : Instr) : Prop :=
  ∃ r ∈ opcodeTable, r.mnemonic = Machine.mnemonic i ∧ r.format = i.format ∧ r.matches (encode i) = true

/-! ## The bits under each mask -/

theorem wordOf_mask_wide (op : Byte) (imm : BitVec 24) : wordOf op imm &&& 0xFF000000 = wordOf op 0 := by
  apply BitVec.eq_of_getLsbD_eq
  intro i hi
  rw [BitVec.getLsbD_and, getLsbD_wordOf, getLsbD_wordOf]
  interval_cases i <;> simp

theorem wordOf_mask_b2 (op a b : Byte) : wordOf op (immB2 a b) &&& 0xFFFF0000 = wordOf op 0 := by
  apply BitVec.eq_of_getLsbD_eq
  intro i hi
  rw [BitVec.getLsbD_and, getLsbD_wordOf, getLsbD_wordOf, getLsbD_immB2]
  interval_cases i <;> simp

theorem wordOf_mask_b1 (op a : Byte) : wordOf op (immB1 a) &&& 0xFFFFFF00 = wordOf op 0 := by
  apply BitVec.eq_of_getLsbD_eq
  intro i hi
  rw [BitVec.getLsbD_and, getLsbD_wordOf, getLsbD_wordOf, getLsbD_immB1]
  interval_cases i <;> simp

theorem wordOf_mask_r (op : Byte) (r : BitVec 4) : wordOf op (immR r) &&& 0xFFFFFFF0 = wordOf op 0 := by
  apply BitVec.eq_of_getLsbD_eq
  intro i hi
  rw [BitVec.getLsbD_and, getLsbD_wordOf, getLsbD_wordOf, getLsbD_immR]
  interval_cases i <;> simp

theorem matches_of {r : Row} {w v : CommandWord} (h : w &&& r.mask = v) (hv : v = r.bits) : r.matches w = true := by
  simp [Row.matches, h, hv]

/-! ## One lemma per constructor -/

theorem add (a b : Byte) : Statement (.add a b) :=
  ⟨⟨"ADD", .b2, 0x10000000, 0xFFFF0000⟩, by decide, rfl, rfl, matches_of (wordOf_mask_b2 _ _ _) (by decide)⟩

theorem xtime (a : Byte) : Statement (.xtime a) :=
  ⟨⟨"XTIME", .b1, 0x11000000, 0xFFFFFF00⟩, by decide, rfl, rfl, matches_of (wordOf_mask_b1 _ _) (by decide)⟩

theorem mul (a b : Byte) : Statement (.mul a b) :=
  ⟨⟨"MUL", .b2, 0x12000000, 0xFFFF0000⟩, by decide, rfl, rfl, matches_of (wordOf_mask_b2 _ _ _) (by decide)⟩

theorem madd (na nb : BitVec 12) : Statement (.madd na nb) :=
  ⟨⟨"MADD", .m2, 0x13000000, 0xFF000000⟩, by decide, rfl, rfl, matches_of (wordOf_mask_wide _ _) (by decide)⟩

theorem sbox (a : Byte) : Statement (.sbox a) :=
  ⟨⟨"SBOX", .b1, 0x20000000, 0xFFFFFF00⟩, by decide, rfl, rfl, matches_of (wordOf_mask_b1 _ _) (by decide)⟩

theorem isbox (a : Byte) : Statement (.isbox a) :=
  ⟨⟨"ISBOX", .b1, 0x21000000, 0xFFFFFF00⟩, by decide, rfl, rfl, matches_of (wordOf_mask_b1 _ _) (by decide)⟩

theorem subb : Statement (.subb) :=
  ⟨⟨"SUBB", .s, 0x30000000, 0xFFFFFFFF⟩, by decide, rfl, rfl, by decide⟩

theorem isubb : Statement (.isubb) :=
  ⟨⟨"ISUBB", .s, 0x31000000, 0xFFFFFFFF⟩, by decide, rfl, rfl, by decide⟩

theorem shrow : Statement (.shrow) :=
  ⟨⟨"SHROW", .s, 0x32000000, 0xFFFFFFFF⟩, by decide, rfl, rfl, by decide⟩

theorem ishrow : Statement (.ishrow) :=
  ⟨⟨"ISHROW", .s, 0x33000000, 0xFFFFFFFF⟩, by decide, rfl, rfl, by decide⟩

theorem mixc : Statement (.mixc) :=
  ⟨⟨"MIXC", .s, 0x34000000, 0xFFFFFFFF⟩, by decide, rfl, rfl, by decide⟩

theorem imixc : Statement (.imixc) :=
  ⟨⟨"IMIXC", .s, 0x35000000, 0xFFFFFFFF⟩, by decide, rfl, rfl, by decide⟩

theorem ark : Statement (.ark) :=
  ⟨⟨"ARK", .sk, 0x36000000, 0xFFFFFFFF⟩, by decide, rfl, rfl, by decide⟩

theorem ldkey : Statement (.ldkey) :=
  ⟨⟨"LDKEY", .si, 0x40000000, 0xFFFFFFFF⟩, by decide, rfl, rfl, by decide⟩

theorem rdrk (r : BitVec 4) : Statement (.rdrk r) :=
  ⟨⟨"RDRK", .r, 0x41000000, 0xFFFFFFF0⟩, by decide, rfl, rfl, matches_of (wordOf_mask_r _ _) (by decide)⟩

theorem rotw : Statement (.rotw) :=
  ⟨⟨"ROTW", .w, 0x42000000, 0xFFFFFFFF⟩, by decide, rfl, rfl, by decide⟩

theorem subw : Statement (.subw) :=
  ⟨⟨"SUBW", .w, 0x43000000, 0xFFFFFFFF⟩, by decide, rfl, rfl, by decide⟩

theorem ciph : Statement (.ciph) :=
  ⟨⟨"CIPH", .s, 0x50000000, 0xFFFFFFFF⟩, by decide, rfl, rfl, by decide⟩

theorem iciph : Statement (.iciph) :=
  ⟨⟨"ICIPH", .s, 0x51000000, 0xFFFFFFFF⟩, by decide, rfl, rfl, by decide⟩

theorem setmode (alg mode : Byte) : Statement (.setmode alg mode) :=
  ⟨⟨"SETMODE", .m, 0x60000000, 0xFFFF0000⟩, by decide, rfl, rfl, matches_of (wordOf_mask_b2 _ _ _) (by decide)⟩

theorem setiv : Statement (.setiv) :=
  ⟨⟨"SETIV", .si, 0x61000000, 0xFFFFFFFF⟩, by decide, rfl, rfl, by decide⟩

theorem ctrb (idx : BitVec 24) : Statement (.ctrb idx) :=
  ⟨⟨"CTRB", .i, 0x62000000, 0xFF000000⟩, by decide, rfl, rfl, matches_of (wordOf_mask_wide _ _) (by decide)⟩

theorem ecbe (n : BitVec 24) : Statement (.ecbe n) :=
  ⟨⟨"ECBE", .c, 0x63000000, 0xFF000000⟩, by decide, rfl, rfl, matches_of (wordOf_mask_wide _ _) (by decide)⟩

theorem ecbd (n : BitVec 24) : Statement (.ecbd n) :=
  ⟨⟨"ECBD", .c, 0x64000000, 0xFF000000⟩, by decide, rfl, rfl, matches_of (wordOf_mask_wide _ _) (by decide)⟩

theorem ctrx (n : BitVec 24) : Statement (.ctrx n) :=
  ⟨⟨"CTRX", .c, 0x65000000, 0xFF000000⟩, by decide, rfl, rfl, matches_of (wordOf_mask_wide _ _) (by decide)⟩

theorem enc (n : BitVec 24) : Statement (.enc n) :=
  ⟨⟨"ENC", .c, 0x66000000, 0xFF000000⟩, by decide, rfl, rfl, matches_of (wordOf_mask_wide _ _) (by decide)⟩

theorem dec (n : BitVec 24) : Statement (.dec n) :=
  ⟨⟨"DEC", .c, 0x67000000, 0xFF000000⟩, by decide, rfl, rfl, matches_of (wordOf_mask_wide _ _) (by decide)⟩

theorem tron : Statement (.tron) :=
  ⟨⟨"TRON", .z, 0x70000000, 0xFFFFFFFF⟩, by decide, rfl, rfl, by decide⟩

theorem troff : Statement (.troff) :=
  ⟨⟨"TROFF", .z, 0x71000000, 0xFFFFFFFF⟩, by decide, rfl, rfl, by decide⟩

end Sys2Proof.Laws.TableRow
end

