-- ==== Sys2Proof/Tests/Slice0.lean ====
section
/-! SUPPORT. The model's own tests: the smoke test of `WellFormed`, words written out bit by bit from `30_encoding.md`, one
or two single commands per instruction with results from the specification's examples, and for every statement with
hypotheses a named witness that meets them together. -/

namespace Sys2Proof.Tests

open Sys2Proof.Machine

set_option maxRecDepth 100000

/-! ## Helpers -/

/-- The key of the known-answer vector (R177). -/
def katKey : Block := Block.ofBits 0x000102030405060708090a0b0c0d0e0f

/-- The persistent registers after LDKEY of that key, SETMODE and SETIV. -/
def katCore (m : Mode) (iv : BitVec 128) (en : Bool) : CoreState :=
  { key := some ⟨katKey, keyExpansion katKey⟩, mode := m, iv := Block.ofBits iv, traceEn := en }

/-- A state with the given persistent registers and the payload of one command. -/
def stateWith (c : CoreState) (din : List Lane) : State := { State.reset with core := c, din := din }

/-- A state with one command presented. -/
def presented (c : CoreState) (w : CommandWord) (din : List Lane) : State :=
  { State.reset with core := c, pending := [.command ⟨w, din⟩] }

/-- The responses after one step; nothing where the step gives no next state. -/
def responsesAfter (s : State) : Option (List Response) :=
  match step s with
  | .next t => some t.responses
  | _ => none

/-- The response of one step on a command presented in the given state; nothing where the step gives no next state. -/
def answer (c : CoreState) (w : CommandWord) (din : List Lane) : Option Response :=
  match step (presented c w din) with
  | .next t => t.responses.getLast?
  | _ => none

/-- The persistent registers after one step on a command; nothing where the step gives no next state. -/
def coreAfter (c : CoreState) (w : CommandWord) (din : List Lane) : Option CoreState :=
  match step (presented c w din) with
  | .next t => some t.core
  | _ => none

/-- The persistent registers after reset. -/
abbrev fresh : CoreState := CoreState.reset

/-- A successful response without a trace. -/
def good (rb : Byte) (dout : List Lane) : Option Response := some (okResponse rb dout [])

/-- The response of an error. -/
def bad (k : ErrorKind) : Option Response := some (errorResponse k)

/-! ## WellFormed: the one check, and a term that it refuses (R75 (c)) -/

theorem test_wellFormed_refuses_rdrk_11 : (Instr.rdrk 11).wellFormed = false := by decide
theorem test_wellFormed_admits_rdrk_10 : (Instr.rdrk 10).wellFormed = true := by decide

/-! ## Decoding: words written out bit by bit, opcode in bits 31:24 (R71, R72, R74) -/

theorem test_decode_add : decode 0b00010000_00000000_01010111_10000011 = .ok (.add 0x57 0x83) := by decide
theorem test_decode_xtime : decode 0b00010001_00000000_00000000_10000000 = .ok (.xtime 0x80) := by decide
theorem test_decode_mul : decode 0b00010010_00000000_01010111_10000011 = .ok (.mul 0x57 0x83) := by decide
theorem test_decode_madd : decode 0b00010011_000000000010_000000000001 = .ok (.madd 2 1) := by decide
theorem test_decode_sbox : decode 0b00100000_00000000_00000000_01010011 = .ok (.sbox 0x53) := by decide
theorem test_decode_isbox : decode 0b00100001_00000000_00000000_11101101 = .ok (.isbox 0xed) := by decide
theorem test_decode_subb : decode 0b00110000_00000000_00000000_00000000 = .ok .subb := by decide
theorem test_decode_isubb : decode 0b00110001_00000000_00000000_00000000 = .ok .isubb := by decide
theorem test_decode_shrow : decode 0b00110010_00000000_00000000_00000000 = .ok .shrow := by decide
theorem test_decode_ishrow : decode 0b00110011_00000000_00000000_00000000 = .ok .ishrow := by decide
theorem test_decode_mixc : decode 0b00110100_00000000_00000000_00000000 = .ok .mixc := by decide
theorem test_decode_imixc : decode 0b00110101_00000000_00000000_00000000 = .ok .imixc := by decide
theorem test_decode_ark : decode 0b00110110_00000000_00000000_00000000 = .ok .ark := by decide
theorem test_decode_ldkey : decode 0b01000000_00000000_00000000_00000000 = .ok .ldkey := by decide
theorem test_decode_rdrk : decode 0b01000001_00000000_00000000_00001010 = .ok (.rdrk 10) := by decide
theorem test_decode_rotw : decode 0b01000010_00000000_00000000_00000000 = .ok .rotw := by decide
theorem test_decode_subw : decode 0b01000011_00000000_00000000_00000000 = .ok .subw := by decide
theorem test_decode_ciph : decode 0b01010000_00000000_00000000_00000000 = .ok .ciph := by decide
theorem test_decode_iciph : decode 0b01010001_00000000_00000000_00000000 = .ok .iciph := by decide
theorem test_decode_setmode : decode 0b01100000_00000000_00000001_00000010 = .ok (.setmode 0x01 0x02) := by decide
theorem test_decode_setiv : decode 0b01100001_00000000_00000000_00000000 = .ok .setiv := by decide
theorem test_decode_ctrb : decode 0b01100010_10000000_00000000_00000000 = .ok (.ctrb 0x800000) := by decide
theorem test_decode_ecbe : decode 0b01100011_00000000_00000000_00001000 = .ok (.ecbe 8) := by decide
theorem test_decode_ecbd : decode 0b01100100_00000000_00000000_00001000 = .ok (.ecbd 8) := by decide
theorem test_decode_ctrx : decode 0b01100101_00000000_00000000_00001100 = .ok (.ctrx 12) := by decide
theorem test_decode_enc : decode 0b01100110_11111111_11111111_11111111 = .ok (.enc 0xFFFFFF) := by decide
theorem test_decode_dec : decode 0b01100111_00000000_00000000_00000100 = .ok (.dec 4) := by decide
theorem test_decode_tron : decode 0b01110000_00000000_00000000_00000000 = .ok .tron := by decide
theorem test_decode_troff : decode 0b01110001_00000000_00000000_00000000 = .ok .troff := by decide

/-- The examples of illegal words of R248. -/
theorem test_decode_illegal :
    decode 0x00000000 = .illegal .undefinedOp ∧ decode 0x14000000 = .illegal .undefinedOp ∧
      decode 0x4100000B = .illegal .roundIndex ∧ decode 0x50000001 = .illegal .reservedBits ∧
      decode 0x20000153 = .illegal .reservedBits := by decide

theorem test_illegal_word_answers : answer fresh 0x4100000B [] = bad .illegalCommand := by decide

/-- The host's question and its answer on one row. -/
theorem test_withFetchWord_runs :
    decodeTableWord 32 0x33000000 = some .ishrow ∧
      responsesAfter (State.reset.withFetchWord 32 0x33000000) = some [okResponse 0x00 [0, 0, 0, 0] []] := by decide

/-! ## One or two commands per instruction; the results stand in the rules cited -/

/-- R104. -/
theorem test_add : answer fresh 0x10005783 [] = good 0xd4 [] := by decide
/-- R105. -/
theorem test_xtime : answer fresh 0x11000080 [] = good 0x1b [] := by decide
/-- R106. -/
theorem test_mul : answer fresh 0x12005783 [] = good 0xc1 [] := by decide
/-- R107. -/
theorem test_madd : answer fresh 0x13001001 [0x01020304, 0x10203040] = good 0x00 [0x11223344] := by decide
/-- R107. -/
theorem test_madd_mismatch : answer fresh 0x13002001 [0, 0, 0] = bad .dimensionMismatch := by decide
/-- R123. -/
theorem test_sbox : answer fresh 0x20000053 [] = good 0xed [] := by decide
/-- R124. -/
theorem test_isbox : answer fresh 0x210000ED [] = good 0x53 [] := by decide
/-- R140. -/
theorem test_subb : answer fresh 0x30000000 [0x00010203, 0x04050607, 0x08090a0b, 0x0c0d0e0f] =
    good 0x00 [0x637c777b, 0xf26b6fc5, 0x3001672b, 0xfed7ab76] := by decide
/-- R141. -/
theorem test_isubb : answer fresh 0x31000000 [0x00010203, 0x04050607, 0x08090a0b, 0x0c0d0e0f] =
    good 0x00 [0x52096ad5, 0x3036a538, 0xbf40a39e, 0x81f3d7fb] := by decide
/-- R142. -/
theorem test_shrow : answer fresh 0x32000000 [0x00010203, 0x04050607, 0x08090a0b, 0x0c0d0e0f] =
    good 0x00 [0x00050a0f, 0x04090e03, 0x080d0207, 0x0c01060b] := by decide
/-- R143. -/
theorem test_ishrow : answer fresh 0x33000000 [0x00010203, 0x04050607, 0x08090a0b, 0x0c0d0e0f] =
    good 0x00 [0x000d0a07, 0x04010e0b, 0x0805020f, 0x0c090603] := by decide
/-- R144. -/
theorem test_mixc : answer fresh 0x34000000 [0xdb135345, 0xf20a225c, 0x01010101, 0xd4d4d4d5] =
    good 0x00 [0x8e4da1bc, 0x9fdc589d, 0x01010101, 0xd5d5d7d6] := by decide
/-- R145. -/
theorem test_imixc : answer fresh 0x35000000 [0x8e4da1bc, 0x9fdc589d, 0x01010101, 0xd5d5d7d6] =
    good 0x00 [0xdb135345, 0xf20a225c, 0x01010101, 0xd4d4d4d5] := by decide
/-- R146. -/
theorem test_ark : answer fresh 0x36000000
    [0x00112233, 0x44556677, 0x8899aabb, 0xccddeeff, 0x00010203, 0x04050607, 0x08090a0b, 0x0c0d0e0f] =
    good 0x00 [0x00102030, 0x40506070, 0x8090a0b0, 0xc0d0e0f0] := by decide
/-- R156: KS[4] and KS[43] afterwards. -/
theorem test_ldkey : (coreAfter fresh 0x40000000 [0x00010203, 0x04050607, 0x08090a0b, 0x0c0d0e0f]).bind
    (fun c => c.key.map fun k => (k.key, (ksCol k.ks 4).toLane, (ksCol k.ks 43).toLane)) =
    some (katKey, 0xd6aa74fd, 0x4d2b30c5) := by decide
/-- R157. -/
theorem test_rdrk : answer (katCore .noMode 0 false) 0x41000001 [] =
    good 0x00 [0xd6aa74fd, 0xd2af72fa, 0xdaa678f1, 0xd6ab76fe] := by decide
/-- R157, R242: from reset. -/
theorem test_rdrk_no_key : answer fresh 0x41000001 [] = bad .uninitializedKey := by decide
/-- R158. -/
theorem test_rotw : answer fresh 0x42000000 [0x0c0d0e0f] = good 0x00 [0x0d0e0f0c] := by decide
/-- R159. -/
theorem test_subw : answer fresh 0x43000000 [0x0d0e0f0c] = good 0x00 [0xd7ab76fe] := by decide
/-- R174. -/
theorem test_ciph : answer (katCore .noMode 0 false) 0x50000000 [0x00112233, 0x44556677, 0x8899aabb, 0xccddeeff] =
    good 0x00 [0x69c4e0d8, 0x6a7b0430, 0xd8cdb780, 0x70b4c55a] := by decide
/-- R224, with tracing on: the count, and records 3 and 52 of `95_test_vectors.md` V1. -/
theorem test_ciph_trace : (answer (katCore .noMode 0 true) 0x50000000
      [0x00112233, 0x44556677, 0x8899aabb, 0xccddeeff]).map
        (fun r => (r.trace.length, r.trace[2]?, r.trace[51]?)) =
    some (52, some ⟨1, .start, Block.ofBits 0x00102030405060708090a0b0c0d0e0f0⟩,
      some ⟨10, .output, Block.ofBits 0x69c4e0d86a7b0430d8cdb78070b4c55a⟩) := by decide
/-- R175. -/
theorem test_iciph : answer (katCore .noMode 0 false) 0x51000000 [0x69c4e0d8, 0x6a7b0430, 0xd8cdb780, 0x70b4c55a] =
    good 0x00 [0x00112233, 0x44556677, 0x8899aabb, 0xccddeeff] := by decide
/-- R190: the mode written. -/
theorem test_setmode : (coreAfter fresh 0x60000102 []).map (·.mode) = some .ctr := by decide
/-- R190: both codes wrong, the algorithm is reported; a wrong mode alone. -/
theorem test_setmode_errors :
    answer fresh 0x60000000 [] = bad .malformedTransformationString ∧
      answer fresh 0x60000103 [] = bad .unsupportedMode := by decide
/-- R191. -/
theorem test_setiv : (coreAfter fresh 0x61000000 [0xffffffff, 0xffffffff, 0xffffffff, 0xfffffffe]).map (·.iv.int) =
    some (2 ^ 128 - 2) := by decide
/-- R195: the counter wraps. -/
theorem test_ctrb_wraps : answer (katCore .noMode 0xfffffffffffffffffffffffffffffffe false) 0x62000002 [] =
    good 0x00 [0, 0, 0, 0] := by decide
/-- R195. -/
theorem test_ctrb_negative : answer fresh 0x62FFFFFF [] = bad .negativeCounterIndex := by decide
/-- R200. -/
theorem test_ecbe : answer (katCore .noMode 0 false) 0x63000008
      [0x00112233, 0x44556677, 0x8899aabb, 0xccddeeff, 0xffeeddcc, 0xbbaa9988, 0x77665544, 0x33221100] =
    good 0x00 [0x69c4e0d8, 0x6a7b0430, 0xd8cdb780, 0x70b4c55a, 0x1b872378, 0x795f4ffd, 0x772855fc, 0x87ca964d] := by
  decide
/-- R243. -/
theorem test_ecbe_shape : answer (katCore .noMode 0 false) 0x63000006 [0, 0, 0, 0, 0, 0] = bad .invalidBlockShape := by
  decide
/-- R201. -/
theorem test_ecbd : answer (katCore .noMode 0 false) 0x64000008
      [0x69c4e0d8, 0x6a7b0430, 0xd8cdb780, 0x70b4c55a, 0x1b872378, 0x795f4ffd, 0x772855fc, 0x87ca964d] =
    good 0x00 [0x00112233, 0x44556677, 0x8899aabb, 0xccddeeff, 0xffeeddcc, 0xbbaa9988, 0x77665544, 0x33221100] := by
  decide
/-- R202: the counter passes through 2^128 - 1 to 0. -/
theorem test_ctrx : answer (katCore .noMode 0xfffffffffffffffffffffffffffffffe false) 0x6500000C
      [0x00112233, 0x44556677, 0x8899aabb, 0xccddeeff, 0xffeeddcc, 0xbbaa9988, 0x77665544, 0x33221100, 0, 0, 0, 0] =
    good 0x00 [0xb6a4e0eb, 0x69deb278, 0x47d7724f, 0x62b37911, 0xc3aac2fe, 0x75ad1bab, 0x13b1f7dd, 0x3d72aa13,
      0xc6a13b37, 0x878f5b82, 0x6f4f8162, 0xa1c8d879] := by decide
/-- R204, R277: one block in CTR mode is ciphered directly. -/
theorem test_enc_bypass : answer (katCore .ctr 0 false) 0x66000004 [0x00112233, 0x44556677, 0x8899aabb, 0xccddeeff] =
    good 0x00 [0x69c4e0d8, 0x6a7b0430, 0xd8cdb780, 0x70b4c55a] := by decide
/-- R204: two blocks in CTR mode. -/
theorem test_enc_ctr : answer (katCore .ctr 0 false) 0x66000008
      [0x00112233, 0x44556677, 0x8899aabb, 0xccddeeff, 0xffeeddcc, 0xbbaa9988, 0x77665544, 0x33221100] =
    good 0x00 [0xc6b01904, 0xc3da3df5, 0xe7d62bd9, 0x6d153686, 0x8ca8ce59, 0x2e6a2d96, 0x3e1de8a7, 0x56d63c0a] := by
  decide
/-- R205. -/
theorem test_dec_bypass : answer (katCore .ctr 0 false) 0x67000004 [0x69c4e0d8, 0x6a7b0430, 0xd8cdb780, 0x70b4c55a] =
    good 0x00 [0x00112233, 0x44556677, 0x8899aabb, 0xccddeeff] := by decide
/-- R249: shape before mode, and the mode check. -/
theorem test_dec_priority :
    answer (katCore .noMode 0 false) 0x67000006 [0, 0, 0, 0, 0, 0] = bad .invalidBlockShape ∧
      answer (katCore .noMode 0 false) 0x67000008 [0, 0, 0, 0, 0, 0, 0, 0] = bad .unsupportedMode := by decide
/-- R220. -/
theorem test_tron : (coreAfter fresh 0x70000000 []).map (·.traceEn) = some true := by decide
/-- R221. -/
theorem test_troff : (coreAfter (katCore .ecb 0 true) 0x71000000 []).map (·.traceEn) = some false := by decide

/-- R229, both values of TRACE_PAD. -/
theorem test_render_record :
    renderRecord .left ⟨1, .start, Block.ofBits 0x00102030405060708090a0b0c0d0e0f0⟩ =
        "round[ 1].start 00102030405060708090a0b0c0d0e0f0".toList ∧
      (renderRecord .right ⟨1, .start, Block.ofBits 0⟩).take 15 = "round[1 ].start".toList := by decide

/-- R80: two lines of its table. -/
theorem test_assembly :
    assembly (.ctrb (-1)) [] = "CTRB -1".toList ∧
      assembly (.madd 1 1) [0x01020304, 0x10203040] = "MADD 1, 1 : 0102030410203040".toList := by decide

/-! ## Witnesses: for every statement with hypotheses, values that meet them together -/

/-- Four zero lanes, the shortest valid payload of the mode layer. -/
abbrev zero4 : List Lane := [0, 0, 0, 0]

/-- A payload of n zero lanes. -/
abbrev zeros (n : Nat) : List Lane := List.replicate n 0

theorem witness_DecodeOfEncodedCommand : (Instr.rdrk 10).wellFormed = true := by decide

theorem witness_EncodeOfDecodedWord : decode 0x4100000A = .ok (.rdrk 10) := by decide

/-- Both clauses, on the two sides of the bound r ≤ 10; and a state at whose port such a word stands. -/
theorem witness_IllegalWordsAreRejected :
    legalWord 0x4100000A = true ∧ legalWord 0x4100000B = false ∧ legalWord 0x41000010 = false ∧
      (presented fresh 0x4100000B []).pending = [.command ⟨0x4100000B, []⟩] := by decide

theorem witness_OpcodeTableRowsAreDisjoint : ∃ r ∈ opcodeTable, r.matches 0x7FFFFFFF = false ∧ r.matches 0x67FFFFFF = true :=
  ⟨⟨"DEC", .c, 0x67000000, 0xFF000000⟩, by decide⟩

/-- The shortest payload and a counted one. -/
theorem witness_CommandEndsAfterItsPayload :
    ([] : List Lane).length = payloadLen 0x63000000 ∧ (zeros 5).length = payloadLen 0x63000005 ∧
      ([] : List Lane).length = payloadLen 0x14000005 := by decide

theorem witness_StepRunsTheDecodedCommand :
    (presented fresh 0x33000000 zero4).pending = [.command ⟨0x33000000, zero4⟩] ∧ decode 0x33000000 = .ok .ishrow ∧
      ({ State.reset with pending := [.reset] } : State).pending = .reset :: [] := by
  decide

/-- Both clauses at the boundary: the announced length, one column less and one more; an illegal word with no payload. -/
theorem witness_PayloadLengthDecidesExecution :
    (stateWith fresh (zeros 8)).din.length = (Instr.enc 8).dinLen ∧
      (stateWith fresh (zeros 7)).din.length ≠ (Instr.enc 8).dinLen ∧
      (stateWith fresh (zeros 9)).din.length ≠ (Instr.enc 8).dinLen ∧
      (presented fresh 0x14000000 []).pending = [.command ⟨0x14000000, []⟩] ∧ payloadLen 0x14000000 = 0 ∧
      payloadLen 0x66000008 = 8 := by decide

theorem witness_ResetDoesNotDependOnHistory :
    ({ State.reset with core := katCore .ctr 1 true, pending := [.reset, .reset] } : State).pending = .reset :: [.reset] := by
  decide

/-- A state with a key loaded has the invariant, and a step from it answers. -/
theorem witness_StepKeepsTheInvariant :
    ∃ s t : State, s.core.keyValid = true ∧ s.Inv ∧ step s = .next t :=
  ⟨presented (katCore .ecb 0 false) 0x70000000 [], _, rfl,
    ⟨fun k hk => by simp only [presented, katCore, Option.some.injEq] at hk; subst hk; rfl,
      fun r hr => by simp [presented] at hr⟩, rfl⟩

/-- The clause of every other command and the five clauses of the writers. -/
theorem witness_OnlyFiveCommandsWriteRegisters :
    (∃ t, exec (.add 0 0) (stateWith fresh []) = .next t ∧ writesCore (.add 0 0) = false) ∧
      (∃ t, exec .ldkey (stateWith fresh zero4) = .next t) ∧
      (∃ t, exec (.setmode 1 2) (stateWith fresh []) = .next t) ∧
      (∃ t, exec .setiv (stateWith fresh zero4) = .next t) ∧
      (∃ t, exec .tron (stateWith fresh []) = .next t) ∧ (∃ t, exec .troff (stateWith fresh []) = .next t) :=
  ⟨⟨_, rfl, rfl⟩, ⟨_, rfl⟩, ⟨_, rfl⟩, ⟨_, rfl⟩, ⟨_, rfl⟩, ⟨_, rfl⟩⟩

theorem witness_ErrorsChangeNoRegister :
    ∃ s t r, step s = .next t ∧ t.responses = s.responses ++ [r] ∧ r.status ≠ .ok :=
  ⟨presented fresh 0x62FFFFFF [], _, errorResponse .negativeCounterIndex, rfl, rfl, by decide⟩

/-- A success and an error; a command without result byte; tracing off. -/
theorem witness_EveryCommandGivesOneResponse :
    (∃ t, exec (.add 1 2) (stateWith fresh []) = .next t) ∧
      (∃ t, exec (.ctrb 0x800000) (stateWith fresh []) = .next t) ∧ givesByte (.ctrb 0x800000) = false ∧
      (stateWith fresh []).core.traceEn = false ∧ runsPipeline (.ctrb 0x800000) = false :=
  ⟨⟨_, rfl⟩, ⟨_, rfl⟩, rfl, rfl, rfl⟩

/-- A pipeline command with tracing on, and a command that runs no pipeline. -/
theorem witness_TraceHasFiftyTwoRecordsPerBlock :
    (∃ t r, exec .ciph (stateWith (katCore .ecb 0 true) zero4) = .next t ∧
        t.responses = (stateWith (katCore .ecb 0 true) zero4).responses ++ [r] ∧ r.status = .ok ∧
        runsPipeline .ciph = true) ∧
      ∃ t r, exec .tron (stateWith fresh []) = .next t ∧ t.responses = (stateWith fresh []).responses ++ [r] ∧
        r.status = .ok ∧ runsPipeline .tron = false :=
  ⟨⟨_, _, rfl, rfl, rfl, rfl⟩, ⟨_, _, rfl, rfl, rfl, rfl⟩⟩

/-- Two states that differ in a transient register and agree on the rest. -/
theorem witness_TransientRegistersAreInvisible :
    ∃ s t : State, s.SameVisible t ∧ s ≠ t :=
  ⟨presented fresh 0x70000000 [],
    { presented fresh 0x70000000 [] with work := { Working.reset with round := 7, blk := 3 } },
    ⟨rfl, rfl, rfl, rfl⟩, by decide⟩

theorem witness_OnlyResetClearsKeyAndMode :
    ∃ s t : State, step s = .next t ∧ (∀ rest, s.pending ≠ .reset :: rest) ∧ s.core.keyValid = true ∧
      s.core.mode ≠ .noMode :=
  ⟨presented (katCore .ctr 0 false) 0x60000101 [], _, rfl, by simp [presented], rfl, by decide⟩

theorem witness_NonzeroBytesHaveOneInverse : (0x01 : Byte) ≠ 0x00 ∧ (0xff : Byte) ≠ 0x00 := by decide

/-- The two ways to meet the hypothesis. -/
theorem witness_SubstitutionTablesAreConsistent :
    multiply 0x53 0xca = 0x01 ∧ ((0x00 : Byte) = 0x00 ∧ (0x00 : Byte) = 0x00) := by decide

theorem witness_MixColumnsMultipliesByTheMatrix :
    ∀ r, (Block.ofBits 0xc6c6c6c6000102030000000000000000).get r 0 =
      (Block.ofBits 0xc6c6c6c6000102030000000000000000).get 0 0 := by decide

/-- The first and the last column formed, one of either case. -/
theorem witness_KeyScheduleRecurrence : (4 ≤ 4 ∧ 4 < 44 ∧ 4 % 4 = 0) ∧ (4 ≤ 43 ∧ 43 < 44 ∧ 43 % 4 ≠ 0) := by decide

theorem witness_RoundConstantsArePowersOfX : 8 < 9 ∧ 9 < 10 := by decide

/-! The payload hypotheses of the command statements, and for each way their words are taken a legal and an illegal word. -/

theorem witness_FieldCommandsAnswer :
    (stateWith fresh []).din = [] ∧
      (opField 0x1000FFFF = 0x10 ∧ (0x1000FFFF : CommandWord).extractLsb' 16 8 = 0) ∧
      (opField 0x10010000 = 0x10 ∧ (0x10010000 : CommandWord).extractLsb' 16 8 ≠ 0) ∧
      (opField 0x110000FF = 0x11 ∧ (0x110000FF : CommandWord).extractLsb' 8 16 = 0) ∧
      (opField 0x11000100 = 0x11 ∧ (0x11000100 : CommandWord).extractLsb' 8 16 ≠ 0) ∧
      (opField 0x1200FFFF = 0x12 ∧ (0x1200FFFF : CommandWord).extractLsb' 16 8 = 0) ∧
      (opField 0x12800000 = 0x12 ∧ (0x12800000 : CommandWord).extractLsb' 16 8 ≠ 0) := by decide

/-- Two empty matrices, two of one column, and the two unequal shapes. -/
theorem witness_MaddAnswers :
    opField 0x13FFF000 = 0x13 ∧
      (([] : Matrix).length = (0 : BitVec 12).toNat ∧ (stateWith fresh []).din = lanesOfMatrix [] ++ lanesOfMatrix []) ∧
      (([Col.ofLane 1] : Matrix).length = (1 : BitVec 12).toNat ∧
        (stateWith fresh [1, 1]).din = lanesOfMatrix [Col.ofLane 1] ++ lanesOfMatrix [Col.ofLane 1]) ∧
      (stateWith fresh [1]).din = lanesOfMatrix [Col.ofLane 1] ++ lanesOfMatrix [] ∧ (1 : BitVec 12) ≠ 0 ∧
      (stateWith fresh [1]).din = lanesOfMatrix [] ++ lanesOfMatrix [Col.ofLane 1] ∧ (0 : BitVec 12) ≠ 1 := by decide

theorem witness_TableCommandsAnswer :
    (stateWith fresh []).din = [] ∧
      (opField 0x200000FF = 0x20 ∧ (0x200000FF : CommandWord).extractLsb' 8 16 = 0) ∧
      (opField 0x20000100 = 0x20 ∧ (0x20000100 : CommandWord).extractLsb' 8 16 ≠ 0) ∧
      (opField 0x210000FF = 0x21 ∧ (0x210000FF : CommandWord).extractLsb' 8 16 = 0) ∧
      (opField 0x21800000 = 0x21 ∧ (0x21800000 : CommandWord).extractLsb' 8 16 ≠ 0) := by decide

theorem witness_TransformCommandsAnswer :
    (stateWith fresh zero4).din = Block.zero.lanes ∧ (stateWith fresh (zeros 8)).din = Block.zero.lanes ++ Block.zero.lanes ∧
      ∀ op ∈ ([0x30, 0x31, 0x32, 0x33, 0x34, 0x35, 0x36] : List Byte),
        (opField (wordOf op 0) = op ∧ immField (wordOf op 0) = 0) ∧
          (opField (wordOf op 1) = op ∧ immField (wordOf op 1) ≠ 0) := by decide

theorem witness_WordCommandsAnswer :
    (stateWith fresh [0x00010203]).din = [(Col.ofLane 0x00010203).toLane] ∧
      ∀ op ∈ ([0x42, 0x43] : List Byte),
        (opField (wordOf op 0) = op ∧ immField (wordOf op 0) = 0) ∧
          (opField (wordOf op 0x800000) = op ∧ immField (wordOf op 0x800000) ≠ 0) := by decide

theorem witness_LdkeyLoadsKeyAndSchedule :
    (stateWith (katCore .ecb 0 false) zero4).din = Block.zero.lanes ∧
      (opField 0x40000000 = 0x40 ∧ immField 0x40000000 = 0) ∧ (opField 0x40000001 = 0x40 ∧ immField 0x40000001 ≠ 0) := by
  decide

/-- r = 10 with and without a key, r = 0 with the schedule of the key, and both ways to be illegal. -/
theorem witness_RdrkReadsARoundKey :
    ((stateWith fresh []).din = [] ∧ (stateWith fresh []).core.key = none ∧ (10 : BitVec 4).toNat ≤ 10) ∧
      ((stateWith (katCore .ecb 0 false) []).din = [] ∧
        ∃ k, (stateWith (katCore .ecb 0 false) []).core.key = some k ∧ k.ks = keyExpansion k.key) ∧
      (opField 0x4100000A = 0x41 ∧ (0x4100000A : CommandWord).extractLsb' 4 20 = 0 ∧
        ((0x4100000A : CommandWord).extractLsb' 0 4).toNat ≤ 10) ∧
      (opField 0x41000010 = 0x41 ∧ (0x41000010 : CommandWord).extractLsb' 4 20 ≠ 0) ∧
      (opField 0x4100000B = 0x41 ∧ 10 < ((0x4100000B : CommandWord).extractLsb' 0 4).toNat) :=
  ⟨by decide, ⟨rfl, _, rfl, rfl⟩, by decide, by decide, by decide⟩

theorem witness_CiphAndIciphAnswer :
    ((stateWith fresh zero4).din = Block.zero.lanes ∧ (stateWith fresh zero4).core.key = none) ∧
      ((stateWith (katCore .noMode 0 true) zero4).din = Block.zero.lanes ∧
        ∃ k, (stateWith (katCore .noMode 0 true) zero4).core.key = some k) ∧
      ∀ op ∈ ([0x50, 0x51] : List Byte),
        (opField (wordOf op 0) = op ∧ immField (wordOf op 0) = 0) ∧
          (opField (wordOf op 1) = op ∧ immField (wordOf op 1) ≠ 0) :=
  ⟨by decide, ⟨by decide, _, rfl⟩, by decide⟩

/-- One pair of codes for each of the four clauses, at the edges of the codes admitted. -/
theorem witness_SetmodeSelectsTheMode :
    (stateWith fresh []).din = [] ∧ ((0x00 : Byte) ≠ 0x01 ∧ (0x02 : Byte) ≠ 0x01) ∧
      ((0x03 : Byte) ≠ 0x01 ∧ (0x03 : Byte) ≠ 0x02 ∧ (0x00 : Byte) ≠ 0x01 ∧ (0x00 : Byte) ≠ 0x02) ∧
      (opField 0x6000FFFF = 0x60 ∧ (0x6000FFFF : CommandWord).extractLsb' 16 8 = 0) ∧
      (opField 0x60010101 = 0x60 ∧ (0x60010101 : CommandWord).extractLsb' 16 8 ≠ 0) := by decide

theorem witness_SetivLoadsTheIv :
    (stateWith fresh zero4).din = Block.zero.lanes ∧
      (opField 0x61000000 = 0x61 ∧ immField 0x61000000 = 0) ∧ (opField 0x61000001 = 0x61 ∧ immField 0x61000001 ≠ 0) := by
  decide

/-- The largest index that is not negative and the least that is. -/
theorem witness_CtrbBuildsTheCounterBlock :
    (stateWith fresh []).din = [] ∧ (0x7FFFFF : BitVec 24).getLsbD 23 = false ∧
      (0x800000 : BitVec 24).getLsbD 23 = true ∧ (0xFFFFFF : BitVec 24).getLsbD 23 = true ∧
      opField 0x62800000 = 0x62 := by decide

/-- The last block of a payload of seven lanes and of a list of two blocks; no key; a key with 0, 6 and 4 columns. -/
theorem witness_EcbeAndEcbdAnswer :
    ((blocksOf (zeros 7))[0]? = some Block.zero ∧ [Block.zero, katKey][1]? = some katKey) ∧
    ((stateWith fresh []).din.length = (0 : BitVec 24).toNat ∧ (stateWith fresh []).core.key = none) ∧
      (∃ k, (stateWith (katCore .noMode 0 false) []).core.key = some k) ∧
      (stateWith (katCore .noMode 0 false) (zeros 6)).din.length = (6 : BitVec 24).toNat ∧ 6 % 4 ≠ 0 ∧
      (stateWith (katCore .noMode 0 false) zero4).din.length = (4 : BitVec 24).toNat ∧ 4 % 4 = 0 ∧
      opField 0x63FFFFFF = 0x63 ∧ opField 0x64FFFFFF = 0x64 :=
  ⟨by decide, by decide, ⟨_, rfl⟩, by decide, by decide, by decide, by decide, by decide, by decide⟩

theorem witness_CtrxAnswers :
    ((stateWith fresh []).din.length = (0 : BitVec 24).toNat ∧ (stateWith fresh []).core.key = none) ∧
      (∃ k, (stateWith (katCore .noMode 0 false) []).core.key = some k) ∧
      (stateWith (katCore .noMode 0 false) (zeros 5)).din.length = (5 : BitVec 24).toNat ∧ 5 % 4 ≠ 0 ∧
      (stateWith (katCore .noMode 0 false) (zeros 12)).din.length = (12 : BitVec 24).toNat ∧ 12 % 4 = 0 ∧
      opField 0x65FFFFFF = 0x65 :=
  ⟨by decide, ⟨_, rfl⟩, by decide, by decide, by decide, by decide, by decide⟩

/-- No key; a bad shape; one block; two blocks in each of the three modes. -/
theorem witness_EncAnswers :
    ((stateWith fresh []).din.length = (0 : BitVec 24).toNat ∧ (stateWith fresh []).core.key = none) ∧
      (∀ m, ∃ k, (stateWith (katCore m 0 false) (zeros 8)).core.key = some k ∧
        (stateWith (katCore m 0 false) (zeros 8)).core.mode = m) ∧
      (stateWith (katCore .ctr 0 false) (zeros 6)).din.length = (6 : BitVec 24).toNat ∧ 6 % 4 ≠ 0 ∧
      ((4 : BitVec 24).toNat = 4 ∧ (stateWith (katCore .ctr 0 false) zero4).din = Block.zero.lanes) ∧
      ((stateWith (katCore .ctr 0 false) (zeros 8)).din.length = (8 : BitVec 24).toNat ∧ 8 ≤ (8 : BitVec 24).toNat ∧
        (8 : BitVec 24).toNat % 4 = 0) ∧ opField 0x66FFFFFF = 0x66 :=
  ⟨by decide, fun _ => ⟨_, rfl, rfl⟩, by decide, by decide, by decide, by decide, by decide⟩

theorem witness_DecAnswers :
    ((stateWith fresh []).din.length = (0 : BitVec 24).toNat ∧ (stateWith fresh []).core.key = none) ∧
      (∀ m, ∃ k, (stateWith (katCore m 0 true) (zeros 8)).core.key = some k ∧
        (stateWith (katCore m 0 true) (zeros 8)).core.mode = m) ∧
      (stateWith (katCore .ctr 0 true) (zeros 7)).din.length = (7 : BitVec 24).toNat ∧ 7 % 4 ≠ 0 ∧
      ((4 : BitVec 24).toNat = 4 ∧ (stateWith (katCore .ctr 0 true) zero4).din = Block.zero.lanes) ∧
      ((stateWith (katCore .ctr 0 true) (zeros 8)).din.length = (8 : BitVec 24).toNat ∧ 8 ≤ (8 : BitVec 24).toNat ∧
        (8 : BitVec 24).toNat % 4 = 0) ∧ opField 0x67FFFFFF = 0x67 :=
  ⟨by decide, fun _ => ⟨_, rfl, rfl⟩, by decide, by decide, by decide, by decide, by decide⟩

/-- The largest integer of a block; a negative index and the index 0. -/
theorem witness_CounterBlockAddsModulo :
    2 ^ 128 - 1 < 2 ^ 128 ∧ (-1 : Int) < 0 ∧ (0 : Int) ≤ 0 := by decide

theorem witness_CountersOfACommandDiffer :
    4194303 < 4194304 ∧ counterBlock (Block.ofBits (-1)) 4194303 = counterBlock (Block.ofBits (-1)) 4194303 := by decide

theorem witness_DecUndoesEnc :
    ∃ (s : State) (n : BitVec 24) (k : KeyRegs), s.core.key = some k ∧ s.core.mode ≠ .noMode ∧
      s.din.length = n.toNat ∧ n.toNat ≠ 0 ∧ n.toNat % 4 = 0 ∧
      ∃ u : State, u.core = s.core ∧ u.din = zeros 4 :=
  ⟨stateWith (katCore .ctr 5 true) zero4, 4, _, rfl, by decide, by decide, by decide, by decide,
    stateWith (katCore .ctr 5 true) zero4, rfl, rfl⟩

theorem witness_CtrxUndoesItself :
    ∃ (s : State) (n : BitVec 24) (k : KeyRegs), s.core.key = some k ∧ s.din.length = n.toNat ∧ n.toNat ≠ 0 ∧
      n.toNat % 4 = 0 ∧ ∃ u : State, u.core.key = s.core.key ∧ u.core.iv = s.core.iv ∧ u.din = zeros 8 :=
  ⟨stateWith (katCore .noMode 5 true) (zeros 8), 8, _, rfl, by decide, by decide, by decide,
    stateWith (katCore .ecb 5 false) (zeros 8), rfl, rfl, rfl⟩

/-- Two payloads that agree on block 1 and differ on block 0. -/
theorem witness_EcbBlocksAreIndependent :
    ∃ (s u : State) (n : BitVec 24) (k : KeyRegs), s.core.key = some k ∧ u.core.key = some k ∧
      s.din.length = n.toNat ∧ u.din.length = n.toNat ∧ n.toNat ≠ 0 ∧ n.toNat % 4 = 0 ∧
      (blocksOf s.din)[1]? = (blocksOf u.din)[1]? ∧ (blocksOf s.din)[0]? ≠ (blocksOf u.din)[0]? :=
  ⟨stateWith (katCore .ecb 0 false) (zeros 8), stateWith (katCore .ctr 1 true) ([1, 1, 1, 1] ++ zeros 4), 8, _, rfl, rfl,
    by decide, by decide, by decide, by decide, by decide, by decide⟩

theorem witness_KeystreamIsReused :
    ∃ (s u : State) (n : BitVec 24) (k : KeyRegs), s.core.key = some k ∧ u.core.key = some k ∧
      s.core.iv = u.core.iv ∧ s.din.length = n.toNat ∧ u.din.length = n.toNat ∧ n.toNat ≠ 0 ∧ n.toNat % 4 = 0 :=
  ⟨stateWith (katCore .ecb 7 false) (zeros 8), stateWith (katCore .ctr 7 true) ([1, 1, 1, 1] ++ zeros 4), 8, _, rfl, rfl,
    rfl, by decide, by decide, by decide, by decide⟩

theorem witness_SingleBlockBypassesTheMode :
    ∃ (s : State) (x : Block) (k : KeyRegs), s.din = x.lanes ∧ s.core.key = some k :=
  ⟨stateWith (katCore .ctr 7 true) zero4, Block.zero, _, by decide, rfl⟩

/-- The commands of the last clause: one that answers, and that is neither TRON nor TROFF. -/
theorem witness_TraceCommandsSetTheFlag :
    (stateWith fresh []).din = [] ∧
      (∀ op ∈ ([0x70, 0x71] : List Byte),
        (opField (wordOf op 0) = op ∧ immField (wordOf op 0) = 0) ∧
          (opField (wordOf op 1) = op ∧ immField (wordOf op 1) ≠ 0)) ∧
      ∃ t, Instr.setiv ≠ .tron ∧ Instr.setiv ≠ .troff ∧ exec .setiv (stateWith (katCore .ecb 0 true) zero4) = .next t :=
  ⟨by decide, by decide, _, by decide, by decide, rfl⟩

/-- Each of the three clauses with hypotheses; the first with a bad shape as well. -/
theorem witness_UninitializedKeyComesFirst :
    ((Instr.enc 6).wellFormed = true ∧ readsSchedule (.enc 6) = true ∧
        (stateWith fresh (zeros 6)).din.length = (Instr.enc 6).dinLen ∧ (stateWith fresh (zeros 6)).core.key = none) ∧
      (∃ t r, exec (.rdrk 10) (stateWith fresh []) = .next t ∧ t.responses = (stateWith fresh []).responses ++ [r] ∧
        r.status = .error .uninitializedKey) ∧
      ∃ t, step (presented (katCore .ecb 0 false) 0x70000000 []) = .next t ∧
        (∀ rest, (presented (katCore .ecb 0 false) 0x70000000 []).pending ≠ .reset :: rest) ∧
        (presented (katCore .ecb 0 false) 0x70000000 []).core.key ≠ none :=
  ⟨by decide, ⟨_, errorResponse .uninitializedKey, rfl, rfl, rfl⟩, _, rfl, by simp [presented], by simp [presented, katCore]⟩

/-- Both ways to have a bad shape, and a step that raises the kind. -/
theorem witness_InvalidBlockShapeOfCountedCommands :
    ((Instr.enc 0).format = .c ∧ (stateWith (katCore .noMode 0 false) []).din.length = (Instr.enc 0).dinLen ∧
        (∃ k, (stateWith (katCore .noMode 0 false) []).core.key = some k) ∧ (Instr.enc 0).dinLen = 0) ∧
      ((stateWith (katCore .noMode 0 false) (zeros 6)).din.length = (Instr.enc 6).dinLen ∧ (Instr.enc 6).dinLen % 4 ≠ 0) ∧
      ∃ t r, exec (.ctrx 5) (stateWith (katCore .noMode 0 false) (zeros 5)) = .next t ∧
        t.responses = (stateWith (katCore .noMode 0 false) (zeros 5)).responses ++ [r] ∧
        r.status = .error .invalidBlockShape :=
  ⟨⟨rfl, rfl, ⟨_, rfl⟩, rfl⟩, by decide, _, errorResponse .invalidBlockShape, rfl, rfl, rfl⟩

theorem witness_ErrorKindsComeFromTheirCommands :
    ∃ s t r kind, (Instr.setmode 0 0).wellFormed = true ∧ exec (.setmode 0 0) s = .next t ∧
      t.responses = s.responses ++ [r] ∧ r.status = .error kind :=
  ⟨stateWith fresh [], _, errorResponse .malformedTransformationString, .malformedTransformationString, rfl, rfl, rfl, rfl⟩

/-- Strings of the two general rows of TRANSFORM, the empty mode name and a lower-case one among them; the largest number of
blocks that a counted command takes, the empty payload, and the least number that does not fit. -/
theorem witness_PseudoInstructionsExpand :
    (("AES128/ecb".toList = "AES128/".toList ++ "ecb".toList ∧ "ecb".toList ≠ "ECB".toList ∧ "ecb".toList ≠ "CTR".toList) ∧
        ("AES128/".toList = "AES128/".toList ++ [] ∧ [] ≠ "ECB".toList ∧ [] ≠ "CTR".toList)) ∧
      (∀ name : List Char, "aes128/ECB".toList ≠ "AES128/".toList ++ name) ∧
      (∀ name : List Char, "AES128".toList ≠ "AES128/".toList ++ name) ∧
      4 * (List.replicate 4194303 Block.zero).length < 2 ^ 24 ∧ 4 * ([] : List Block).length < 2 ^ 24 ∧
      2 ^ 24 ≤ 4 * (List.replicate 4194304 Block.zero).length := by
  rw [List.length_replicate, List.length_replicate]
  exact ⟨by decide, fun name => by simp, fun name => by simp, by decide, by decide, by decide⟩

end Sys2Proof.Tests
end

section
/-! The two events of the host's list, as a step takes them (`30_encoding.md` rules R70, R75, R79; R270). -/

namespace Sys2Proof.Machine

/-- The case of `step_cases` beside `step_of_idle`, `step_of_reset` and `step_of_illegal`. -/
theorem step_of_decodes {s : State} {c : Command} {rest : List HostEvent} {i : Instr}
    (h : s.pending = .command c :: rest) (hw : decode c.word = .ok i) : step s = exec i (s.accept c rest) := by
  simp [step, fetch, h, hw]

/-- Settles O7: a command goes to `exec` in the state `State.accept` gives, a reset to the state `State.resetEvent` gives. -/
theorem stepRunsTheDecodedCommand : Obligations.StepRunsTheDecodedCommand := by
  unfold Obligations.StepRunsTheDecodedCommand
  constructor
  · intro s c rest i hp hw
    exact step_of_decodes hp hw
  · intro s rest hp
    exact ⟨s.resetEvent rest, step_of_reset hp, s.resetEvent_pending rest, s.resetEvent_din rest⟩

end Sys2Proof.Machine
end

section
/-! The pipeline sequencer over STATE, PHASE and ROUND (`10_state.md` rule R29), and the trace of one run. -/

namespace Sys2Proof.Machine

/-! ## Phase steps in a row -/

theorem runTicks_add (dir : Direction) (ks : Schedule) (en : Bool) (m n : Nat) (w : Working) :
    runTicks dir ks en (m + n) w =
      ((runTicks dir ks en n (runTicks dir ks en m w).1).1,
        (runTicks dir ks en m w).2 ++ (runTicks dir ks en n (runTicks dir ks en m w).1).2) := by
  induction m generalizing w with
  | zero => simp [runTicks]
  | succ m ih => simp [Nat.succ_add, runTicks, ih]

theorem runTicks_one (dir : Direction) (ks : Schedule) (en : Bool) (w : Working) :
    runTicks dir ks en 1 w = tick dir ks en w := by
  simp [runTicks]

/-- What the registers hold after the Initial step and `n` rounds, the State being `x`: ROUND = n + 1, and PHASE is
FinalRound once all nine rounds are done (R29). -/
def Working.afterRounds (w : Working) (x : Block) (n : Nat) : Working :=
  { w with state := x, round := BitVec.ofNat 4 (n + 1), phase := if n = 9 then .finalRound else .round }

/-- What the registers hold at the end of a run with the result `x` (R29). -/
def Working.afterRun (w : Working) (x : Block) : Working := { w with state := x, phase := .output, round := 10 }

@[simp] theorem Working.afterRounds_state (w : Working) (x : Block) (n : Nat) : (w.afterRounds x n).state = x := rfl

theorem Working.afterRounds_phase (w : Working) (x : Block) {n : Nat} (h : n < 9) :
    (w.afterRounds x n).phase = .round :=
  if_neg (by omega)

@[simp] theorem Working.afterRounds_round (w : Working) (x : Block) (n : Nat) :
    (w.afterRounds x n).round = BitVec.ofNat 4 (n + 1) := rfl

theorem Working.nextRound_afterRounds (w : Working) (x y : Block) {n : Nat} (h : n < 9) :
    (w.afterRounds x n).nextRound y = w.afterRounds y (n + 1) := by
  have hround : BitVec.ofNat 4 (n + 1) + 1 = BitVec.ofNat 4 (n + 1 + 1) := (BitVec.ofNat_add (n + 1) 1).symm
  have hlast : BitVec.ofNat 4 (n + 1 + 1) = 10 ↔ n + 1 = 9 := by
    rw [← BitVec.toNat_inj, BitVec.toNat_ofNat, Nat.mod_eq_of_lt (by omega)]
    simp
  simp only [Working.nextRound, Working.afterRounds, hround, hlast]

section
variable {dir : Direction} {ks : Schedule} {en : Bool} {w : Working} {state : Nat → Block}
  {records : Nat → List TraceRecord}

theorem runTicks_rounds
    (hround : ∀ n < 9, tick dir ks en (w.afterRounds (state n) n) =
      (w.afterRounds (state (n + 1)) (n + 1), if en then records n else []))
    {n : Nat} (hn : n ≤ 9) :
    runTicks dir ks en n (w.afterRounds (state 0) 0) =
      (w.afterRounds (state n) n, if en then (List.range n).flatMap records else []) := by
  induction n with
  | zero => simp [runTicks]
  | succ n ih =>
    rw [runTicks_add, ih (by omega), runTicks_one, hround n hn, List.range_succ]
    cases en <;> simp

/-- A run is its Initial step, its nine rounds and its final round, in both pipelines. -/
theorem runPipeline_of_ticks {x y : Block} {first last : List TraceRecord}
    (hfirst : tick dir ks en (w.load x) = (w.afterRounds (state 0) 0, if en then first else []))
    (hround : ∀ n < 9, tick dir ks en (w.afterRounds (state n) n) =
      (w.afterRounds (state (n + 1)) (n + 1), if en then records n else []))
    (hlast : tick dir ks en (w.afterRounds (state 9) 9) = (w.afterRun y, if en then last else [])) :
    runPipeline dir ks en x w =
      (w.afterRun y, if en then first ++ (List.range 9).flatMap records ++ last else []) := by
  rw [runPipeline, show 11 = 1 + 9 + 1 from rfl, runTicks_add, runTicks_add]
  simp only [runTicks_one, hfirst, runTicks_rounds hround le_rfl, hlast]
  cases en <;> simp

end

/-! ## The forward pipeline -/

theorem cipherTick_initial (ks : Schedule) (en : Bool) (x : Block) (w : Working) :
    cipherTick ks en (w.load x) =
      (w.afterRounds (cipherState x ks 0) 0,
        if en then [⟨0, .input, x⟩, ⟨0, .kSch, roundKey ks 0⟩] else []) := by
  cases en <;> rfl

theorem cipherTick_round (ks : Schedule) (en : Bool) (x : Block) (w : Working) {n : Nat} (h : n < 9) :
    cipherTick ks en (w.afterRounds (cipherState x ks n) n) =
      (w.afterRounds (cipherState x ks (n + 1)) (n + 1),
        if en then forwardRoundTrace ks (n + 1) (cipherState x ks n) else []) := by
  have hk : (n + 1) % 2 ^ 4 = n + 1 := Nat.mod_eq_of_lt (by omega)
  simp only [cipherTick, Working.afterRounds_phase w _ h, Working.afterRounds_state, Working.afterRounds_round,
    Working.nextRound_afterRounds w _ _ h, BitVec.toNat_ofNat, hk, cipherState, cipherRound, forwardRoundTrace]
  cases en <;> rfl

theorem cipherTick_final (ks : Schedule) (en : Bool) (x : Block) (w : Working) :
    cipherTick ks en (w.afterRounds x 9) =
      (w.afterRun (addRoundKey (shiftRows (subBytes x)) (roundKey ks 10)),
        if en then
          [⟨10, .start, x⟩, ⟨10, .sBox, subBytes x⟩, ⟨10, .sRow, shiftRows (subBytes x)⟩, ⟨10, .kSch, roundKey ks 10⟩,
            ⟨10, .output, addRoundKey (shiftRows (subBytes x)) (roundKey ks 10)⟩]
        else []) := by
  cases en <;> rfl

/-! ## The inverse pipeline -/

theorem invCipherTick_initial (ks : Schedule) (en : Bool) (x : Block) (w : Working) :
    invCipherTick ks en (w.load x) =
      (w.afterRounds (invCipherState x ks 0) 0,
        if en then [⟨0, .iinput, x⟩, ⟨0, .ikSch, roundKey ks 10⟩] else []) := by
  cases en <;> rfl

theorem invCipherTick_round (ks : Schedule) (en : Bool) (x : Block) (w : Working) {n : Nat} (h : n < 9) :
    invCipherTick ks en (w.afterRounds (invCipherState x ks n) n) =
      (w.afterRounds (invCipherState x ks (n + 1)) (n + 1),
        if en then inverseRoundTrace ks (n + 1) (invCipherState x ks n) else []) := by
  have hk : (n + 1) % 2 ^ 4 = n + 1 := Nat.mod_eq_of_lt (by omega)
  simp only [invCipherTick, Working.afterRounds_phase w _ h, Working.afterRounds_state, Working.afterRounds_round,
    Working.nextRound_afterRounds w _ _ h, BitVec.toNat_ofNat, hk, invCipherState, invCipherRound, inverseRoundTrace]
  cases en <;> rfl

theorem invCipherTick_final (ks : Schedule) (en : Bool) (x : Block) (w : Working) :
    invCipherTick ks en (w.afterRounds x 9) =
      (w.afterRun (addRoundKey (invSubBytes (invShiftRows x)) (roundKey ks 0)),
        if en then
          [⟨10, .istart, x⟩, ⟨10, .isRow, invShiftRows x⟩, ⟨10, .isBox, invSubBytes (invShiftRows x)⟩,
            ⟨10, .ikSch, roundKey ks 0⟩,
            ⟨10, .ioutput, addRoundKey (invSubBytes (invShiftRows x)) (roundKey ks 0)⟩]
        else []) := by
  cases en <;> rfl

/-! ## A run in either direction -/

/-- The function that a pipeline computes (R170, R171). -/
def pipelineResult : Direction → Block → Schedule → Block
  | .forward => cipher
  | .inverse => invCipher

/-- The trace table of a pipeline (R224, R225). -/
def pipelineTrace : Direction → Block → Schedule → List TraceRecord
  | .forward => forwardTrace
  | .inverse => inverseTrace

theorem runPipeline_eq (dir : Direction) (ks : Schedule) (en : Bool) (x : Block) (w : Working) :
    runPipeline dir ks en x w =
      (w.afterRun (pipelineResult dir x ks), if en then pipelineTrace dir x ks else []) := by
  cases dir with
  | forward =>
    exact runPipeline_of_ticks (cipherTick_initial ks en x w) (fun _ h => cipherTick_round ks en x w h)
      (cipherTick_final ks en _ w)
  | inverse =>
    exact runPipeline_of_ticks (invCipherTick_initial ks en x w) (fun _ h => invCipherTick_round ks en x w h)
      (invCipherTick_final ks en _ w)

/-- Settles O31: in each direction the run's phase steps, one by one, are the rows of the pipeline's function and of its
trace table. -/
theorem sequencerComputesTheCipher : Obligations.SequencerComputesTheCipher := by
  unfold Obligations.SequencerComputesTheCipher
  intro ks en x w
  exact ⟨runPipeline_eq .forward ks en x w, runPipeline_eq .inverse ks en x w⟩

end Sys2Proof.Machine
end

section
/-! The traces of pipeline runs are whole runs of 52 records (`47_trace.md` rules R222, R224 to R227), and which responses
are lawful. -/

namespace Sys2Proof.Machine

/-! ## Whole runs -/

/-- A trace of whole pipeline runs whose rounds are in range: what `Response.Lawful` asks of a trace. -/
def WholeRuns (trace : List TraceRecord) : Prop := 52 ∣ trace.length ∧ ∀ t ∈ trace, t.round.toNat ≤ 10

theorem WholeRuns.nil : WholeRuns [] := ⟨by simp, by simp⟩

theorem WholeRuns.append {l₁ l₂ : List TraceRecord} (h₁ : WholeRuns l₁) (h₂ : WholeRuns l₂) : WholeRuns (l₁ ++ l₂) := by
  constructor
  · rw [List.length_append]
    exact Nat.dvd_add h₁.1 h₂.1
  · exact List.forall_mem_append.mpr ⟨h₁.2, h₂.2⟩

/-- The rounds of the 52 records of a run, the same in R224 and R225. -/
def runRounds : List (BitVec 4) :=
  [0, 0] ++ (List.range 9).flatMap (fun n => List.replicate 5 (BitVec.ofNat 4 (n + 1))) ++ List.replicate 5 10

theorem map_round_pipelineTrace (dir : Direction) (x : Block) (ks : Schedule) :
    (pipelineTrace dir x ks).map TraceRecord.round = runRounds := by
  cases dir <;> rfl

theorem length_pipelineTrace (dir : Direction) (x : Block) (ks : Schedule) : (pipelineTrace dir x ks).length = 52 := by
  rw [← List.length_map (f := TraceRecord.round), map_round_pipelineTrace]
  decide

theorem wholeRuns_pipelineTrace (dir : Direction) (x : Block) (ks : Schedule) : WholeRuns (pipelineTrace dir x ks) := by
  refine ⟨by rw [length_pipelineTrace], fun t ht => ?_⟩
  have hrounds : ∀ r ∈ runRounds, r.toNat ≤ 10 := by decide
  refine hrounds t.round ?_
  rw [← map_round_pipelineTrace dir x ks]
  exact List.mem_map_of_mem ht

theorem wholeRuns_runPipeline (dir : Direction) (ks : Schedule) (en : Bool) (x : Block) (w : Working) :
    WholeRuns (runPipeline dir ks en x w).2 := by
  rw [runPipeline_eq]
  cases en with
  | false => exact .nil
  | true => exact wholeRuns_pipelineTrace dir x ks

/-! ## Lawful responses -/

theorem okResponse_lawful (rb : Byte) (dout : List Lane) {trace : List TraceRecord} (h : WholeRuns trace) :
    (okResponse rb dout trace).Lawful :=
  ⟨fun _ hk => (nomatch hk), h⟩

theorem errorResponse_lawful (k : ErrorKind) : (errorResponse k).Lawful :=
  ⟨fun _ hk => by rw [Status.error.inj hk], WholeRuns.nil⟩

end Sys2Proof.Machine
end

section
/-! The block sequencers (`46_modes.md` rules R197 to R199): of the transient registers, BLK alone reaches the outputs and
the trace, and a command sets it before it reads it (R28). -/

namespace Sys2Proof.Machine

/-- What one block of a sequencer gives, and the BLK it leaves, depend on BLK alone among the transient registers; and the
block's trace is of whole runs. -/
structure BlockStep (step : Block → Working → Working × Block × List TraceRecord) : Prop where
  answer : ∀ b (v w : Working), v.blk = w.blk → (step b v).2 = (step b w).2
  blk : ∀ b (v w : Working), v.blk = w.blk → (step b v).1.blk = (step b w).1.blk
  wholeRuns : ∀ b w, WholeRuns (step b w).2.2

theorem blockStep_ecbStep (dir : Direction) (ks : Schedule) (en : Bool) : BlockStep (ecbStep dir ks en) where
  answer b v w _ := by simp only [ecbStep, runPipeline_eq, Working.afterRun]
  blk b v w h := by simp only [ecbStep, runPipeline_eq, Working.nextBlk_blk, Working.afterRun, h]
  wholeRuns b w := wholeRuns_runPipeline dir ks en b w

theorem blockStep_ctrStep (iv : Block) (ks : Schedule) (en : Bool) : BlockStep (ctrStep iv ks en) where
  answer b v w h := by simp only [ctrStep, runPipeline_eq, Working.afterRun, h]
  blk b v w h := by simp only [ctrStep, runPipeline_eq, Working.nextBlk_blk, Working.afterRun, h]
  wholeRuns b w := by
    simp only [ctrStep]
    exact wholeRuns_runPipeline _ _ _ _ _

section
variable {step : Block → Working → Working × Block × List TraceRecord}

theorem BlockStep.sequenceBlocks_answer (hstep : BlockStep step) (bs : List Block) {v w : Working}
    (h : v.blk = w.blk) : (sequenceBlocks step bs v).2 = (sequenceBlocks step bs w).2 := by
  induction bs generalizing v w with
  | nil => rfl
  | cons b bs ih => simp only [sequenceBlocks, hstep.answer b v w h, ih (hstep.blk b v w h)]

theorem BlockStep.sequenceBlocks_wholeRuns (hstep : BlockStep step) (bs : List Block) (w : Working) :
    WholeRuns (sequenceBlocks step bs w).2.2 := by
  induction bs generalizing w with
  | nil => exact .nil
  | cons b bs ih => exact (hstep.wholeRuns b w).append (ih _)

end

end Sys2Proof.Machine
end

section
/-! What a command can do: it is refused, or it ends with a lawful response and a write that R36 allows; and which of
these, and with what, does not depend on the transient registers (`10_state.md` rules R28, R36, R39). -/

namespace Sys2Proof.Machine

/-! ## The write matrix -/

/-- `CoreWrite i c c'`: a completed `i` may leave `c'` where the persistent registers were `c` (R36). A command that ends
with an error, a writer among them, keeps them all (R250). -/
inductive CoreWrite : Instr → CoreState → CoreState → Prop where
  | keep (i : Instr) (c : CoreState) : CoreWrite i c c
  | ldkey (c : CoreState) (k : Block) : CoreWrite .ldkey c (c.loadKey k (keyExpansion k))
  | setmode {alg mode : Byte} {m : Mode} (h : Mode.ofSelector mode = some m) (c : CoreState) :
      CoreWrite (.setmode alg mode) c (c.setMode m)
  | setiv (c : CoreState) (v : Block) : CoreWrite .setiv c (c.setIv v)
  | tron (c : CoreState) : CoreWrite .tron c (c.setTraceEn true)
  | troff (c : CoreState) : CoreWrite .troff c (c.setTraceEn false)

/-- SETMODE selects ECB or CTR, never NONE (R190). -/
theorem Mode.ne_noMode_of_ofSelector {v : Byte} {m : Mode} (h : Mode.ofSelector v = some m) : m ≠ .noMode := by
  rintro rfl
  unfold Mode.ofSelector at h
  split at h
  · cases h
  · split at h <;> cases h

/-- TMPW is written before it is read (R153). -/
theorem keyExpandRegs_schedule (k : Block) (tmpw : Col) : (keyExpandRegs k tmpw).1 = keyExpansion k := rfl

/-! ## States that differ in the transient registers -/

section
variable {s t : State} (h : s.SameVisible t)
include h

theorem State.SameVisible.core : s.core = t.core := h.1

theorem State.SameVisible.pending : s.pending = t.pending := h.2.1

theorem State.SameVisible.din : s.din = t.din := h.2.2.1

theorem State.SameVisible.responses : s.responses = t.responses := h.2.2.2

theorem State.SameVisible.accept (c : Command) (rest : List HostEvent) :
    (s.accept c rest).SameVisible (t.accept c rest) :=
  ⟨h.core, rfl, rfl, h.responses⟩

theorem State.SameVisible.resetEvent (rest : List HostEvent) : (s.resetEvent rest).SameVisible (t.resetEvent rest) :=
  ⟨rfl, rfl, rfl, h.responses⟩

theorem State.SameVisible.finish (c : CoreState) (r : Response) :
    (({ s with core := c } : State).finish r).SameVisible (({ t with core := c } : State).finish r) :=
  ⟨rfl, h.pending, rfl, congrArg (· ++ [r]) h.responses⟩

end

theorem State.SameVisible.refl (s : State) : s.SameVisible s := ⟨rfl, rfl, rfl, rfl⟩

/-! ## Two runs of one command -/

/-- The answers `a` in state `s` and `b` in state `t` are twins: both are refused, or both end with the same lawful response
and the same persistent registers, which `W` allows. -/
def Twin (W : CoreState → Prop) (s t : State) (a b : Answer) : Prop :=
  (a = .refused .payloadLength ∧ b = .refused .payloadLength) ∨
    ∃ c r, W c ∧ r.Lawful ∧ a = .next (({ s with core := c } : State).finish r) ∧
      b = .next (({ t with core := c } : State).finish r)

/-! ### Ends -/

section
variable {W : CoreState → Prop} {s t : State}

theorem twin_write {c : CoreState} (hc : W c) {rb : Byte} {dout : List Lane} {trace : List TraceRecord}
    (ht : WholeRuns trace) (v w : Working) :
    Twin W s t (respond rb dout trace { s with core := c, work := v })
      (respond rb dout trace { t with core := c, work := w }) :=
  .inr ⟨c, _, hc, okResponse_lawful rb dout ht, rfl, rfl⟩

variable (h : s.SameVisible t)
include h

theorem twin_finish (hW : W s.core) {r : Response} (hr : r.Lawful) :
    Twin W s t (.next (s.finish r)) (.next (t.finish r)) :=
  .inr ⟨s.core, r, hW, hr, rfl, by rw [h.core]⟩

theorem twin_keep (hW : W s.core) {rb : Byte} {dout : List Lane} {trace : List TraceRecord} (ht : WholeRuns trace) :
    Twin W s t (respond rb dout trace s) (respond rb dout trace t) :=
  twin_finish h hW (okResponse_lawful rb dout ht)

theorem twin_raise (hW : W s.core) (k : ErrorKind) : Twin W s t (raise k s) (raise k t) :=
  twin_finish h hW (errorResponse_lawful k)

/-! ### Operand forms -/

theorem twin_withNoPayload {a b : Answer} (hab : Twin W s t a b) :
    Twin W s t (withNoPayload s a) (withNoPayload t b) := by
  unfold withNoPayload
  rw [← h.din]
  split
  · exact hab
  · exact .inl ⟨rfl, rfl⟩

theorem twin_withCol {f g : Col → Answer} (hfg : ∀ w, Twin W s t (f w) (g w)) :
    Twin W s t (withCol s f) (withCol t g) := by
  unfold withCol
  rw [← h.din]
  split
  · exact hfg _
  · exact .inl ⟨rfl, rfl⟩

theorem twin_withBlock {f g : Block → Answer} (hfg : ∀ x, Twin W s t (f x) (g x)) :
    Twin W s t (withBlock s f) (withBlock t g) := by
  unfold withBlock
  rw [← h.din]
  split
  · exact hfg _
  · exact .inl ⟨rfl, rfl⟩

theorem twin_withTwoBlocks {f g : Block → Block → Answer} (hfg : ∀ x k, Twin W s t (f x k) (g x k)) :
    Twin W s t (withTwoBlocks s f) (withTwoBlocks t g) := by
  unfold withTwoBlocks
  rw [← h.din]
  split
  · exact hfg _ _
  · exact .inl ⟨rfl, rfl⟩

theorem twin_withLanes (n : Nat) {f g : List Lane → Answer} (hfg : ∀ ls, Twin W s t (f ls) (g ls)) :
    Twin W s t (withLanes n s f) (withLanes n t g) := by
  unfold withLanes
  rw [← h.din]
  split
  · exact hfg _
  · exact .inl ⟨rfl, rfl⟩

/-! ### Checks -/

theorem twin_withSchedule (hW : W s.core) {f g : Schedule → Answer} (hfg : ∀ ks, Twin W s t (f ks) (g ks)) :
    Twin W s t (withSchedule s f) (withSchedule t g) := by
  unfold withSchedule
  rw [← h.core]
  split
  · exact twin_raise h hW _
  · exact hfg _

theorem twin_withShape (hW : W s.core) (n : Nat) {a b : Answer} (hab : Twin W s t a b) :
    Twin W s t (withShape n s a) (withShape n t b) := by
  unfold withShape
  split
  · exact twin_raise h hW _
  · exact hab

/-! ### Functions of the payload -/

theorem twin_ofCol (hW : W s.core) (f : Col → List Lane) :
    Twin W s t (withCol s fun w => respond 0x00 (f w) [] s) (withCol t fun w => respond 0x00 (f w) [] t) :=
  twin_withCol h fun _ => twin_keep h hW .nil

theorem twin_ofBlock (hW : W s.core) (f : Block → List Lane) :
    Twin W s t (withBlock s fun x => respond 0x00 (f x) [] s) (withBlock t fun x => respond 0x00 (f x) [] t) :=
  twin_withBlock h fun _ => twin_keep h hW .nil

theorem twin_ofTwoBlocks (hW : W s.core) (f : Block → Block → List Lane) :
    Twin W s t (withTwoBlocks s fun x k => respond 0x00 (f x k) [] s)
      (withTwoBlocks t fun x k => respond 0x00 (f x k) [] t) :=
  twin_withTwoBlocks h fun _ _ => twin_keep h hW .nil

/-! ### Pipelines and sequencers -/

theorem twin_runPipeline (hW : W s.core) (dir : Direction) (ks : Schedule) (x : Block) :
    Twin W s t
      (respond 0x00 (runPipeline dir ks s.core.traceEn x s.work).1.state.lanes
        (runPipeline dir ks s.core.traceEn x s.work).2 { s with work := (runPipeline dir ks s.core.traceEn x s.work).1 })
      (respond 0x00 (runPipeline dir ks t.core.traceEn x t.work).1.state.lanes
        (runPipeline dir ks t.core.traceEn x t.work).2
        { t with work := (runPipeline dir ks t.core.traceEn x t.work).1 }) := by
  have hr := wholeRuns_runPipeline dir ks s.core.traceEn x s.work
  rw [← h.core]
  simp only [runPipeline_eq, Working.afterRun] at hr ⊢
  exact twin_write hW hr _ _

theorem twin_runSequencer (hW : W s.core) {step : Block → Working → Working × Block × List TraceRecord}
    (hstep : BlockStep step) (ls : List Lane) : Twin W s t (runSequencer step ls s) (runSequencer step ls t) := by
  have hanswer := hstep.sequenceBlocks_answer (blocksOf ls) (v := { t.work with blk := 0 })
    (w := { s.work with blk := 0 }) rfl
  simp only [runSequencer, hanswer, ← h.core]
  exact twin_write hW (hstep.sequenceBlocks_wholeRuns _ _) _ _

theorem twin_runEcb (hW : W s.core) (dir : Direction) (ks : Schedule) (ls : List Lane) :
    Twin W s t (runEcb dir ks ls s) (runEcb dir ks ls t) := by
  unfold runEcb
  rw [← h.core]
  exact twin_runSequencer h hW (blockStep_ecbStep _ _ _) ls

theorem twin_runCtr (hW : W s.core) (ks : Schedule) (ls : List Lane) :
    Twin W s t (runCtr ks ls s) (runCtr ks ls t) := by
  unfold runCtr
  rw [← h.core]
  exact twin_runSequencer h hW (blockStep_ctrStep _ _ _) ls

theorem twin_dispatchMode (hW : W s.core) (dir : Direction) (n : BitVec 24) (ks : Schedule) (ls : List Lane) :
    Twin W s t (dispatchMode dir n ks ls s) (dispatchMode dir n ks ls t) := by
  unfold dispatchMode
  rw [← h.core]
  split
  · exact twin_runEcb h hW dir ks ls
  · cases s.core.mode with
    | ecb => exact twin_runEcb h hW dir ks ls
    | ctr => exact twin_runCtr h hW ks ls
    | noMode => exact twin_raise h hW _

/-- The prelude of the counted commands: the columns, the key, the shape (R200 to R205). -/
theorem twin_counted (hW : W s.core) (n : Nat) {f g : Schedule → List Lane → Answer}
    (hfg : ∀ ks ls, Twin W s t (f ks ls) (g ks ls)) :
    Twin W s t (withLanes n s fun ls => withSchedule s fun ks => withShape n s (f ks ls))
      (withLanes n t fun ls => withSchedule t fun ks => withShape n t (g ks ls)) :=
  twin_withLanes h n fun ls => twin_withSchedule h hW fun ks => twin_withShape h hW n (hfg ks ls)

/-! ### The commands with a write, or with more than one end -/

theorem twin_execMadd (hW : W s.core) (na nb : BitVec 12) : Twin W s t (execMadd na nb s) (execMadd na nb t) := by
  refine twin_withLanes h _ fun ls => ?_
  cases madd (matrixOf (ls.take na.toNat)) (matrixOf (ls.drop na.toNat)) with
  | none => exact twin_raise h hW _
  | some y => exact twin_keep h hW .nil

theorem twin_execRdrk (hW : W s.core) (r : BitVec 4) : Twin W s t (execRdrk r s) (execRdrk r t) := by
  refine twin_withNoPayload h ?_
  split
  · exact twin_withSchedule h hW fun ks => twin_keep h hW .nil
  · exact twin_raise h hW _

theorem twin_execCtrb (hW : W s.core) (idx : BitVec 24) : Twin W s t (execCtrb idx s) (execCtrb idx t) := by
  refine twin_withNoPayload h ?_
  rw [← h.core]
  cases ctrBlock s.core.iv (sint24 idx) with
  | none => exact twin_raise h hW _
  | some b => exact twin_keep h hW .nil

theorem twin_execLdkey : Twin (CoreWrite .ldkey s.core) s t (execLdkey s) (execLdkey t) := by
  refine twin_withBlock h fun k => ?_
  simp only [keyExpandRegs_schedule, ← h.core]
  exact twin_write (.ldkey s.core k) .nil _ _

theorem twin_execSetiv : Twin (CoreWrite .setiv s.core) s t (execSetiv s) (execSetiv t) := by
  refine twin_withBlock h fun v => ?_
  rw [← h.core]
  exact twin_write (.setiv s.core v) .nil _ _

theorem twin_execSetmode (alg mode : Byte) :
    Twin (CoreWrite (.setmode alg mode) s.core) s t (execSetmode alg mode s) (execSetmode alg mode t) := by
  refine twin_withNoPayload h ?_
  rw [← h.core]
  split
  · exact twin_raise h (.keep _ _) _
  · cases hm : Mode.ofSelector mode with
    | none => exact twin_raise h (.keep _ _) _
    | some m => exact twin_write (.setmode hm _) .nil _ _

theorem sameAnswer_of_twin {a b : Answer} (hab : Twin W s t a b) : sameAnswer a b := by
  rcases hab with ⟨rfl, rfl⟩ | ⟨c, r, -, -, rfl, rfl⟩
  · rfl
  · exact h.finish c r

end

/-! ### Every command -/

/-- Everything a command can do, in two states at once that differ in the transient registers: each of the 29 commands is
its operand form, its checks and its ends. -/
theorem exec_twin (i : Instr) {s t : State} (h : s.SameVisible t) :
    Twin (CoreWrite i s.core) s t (exec i s) (exec i t) := by
  have hW : CoreWrite i s.core s.core := .keep i s.core
  cases i with
  | add | xtime | mul | sbox | isbox => exact twin_withNoPayload h (twin_keep h hW .nil)
  | subb => exact twin_ofBlock h hW fun x => (subBytes x).lanes
  | isubb => exact twin_ofBlock h hW fun x => (invSubBytes x).lanes
  | shrow => exact twin_ofBlock h hW fun x => (shiftRows x).lanes
  | ishrow => exact twin_ofBlock h hW fun x => (invShiftRows x).lanes
  | mixc => exact twin_ofBlock h hW fun x => (mixColumns x).lanes
  | imixc => exact twin_ofBlock h hW fun x => (invMixColumns x).lanes
  | ark => exact twin_ofTwoBlocks h hW fun x k => (addRoundKey x k).lanes
  | rotw => exact twin_ofCol h hW fun w => [(rotWord w).toLane]
  | subw => exact twin_ofCol h hW fun w => [(subWord w).toLane]
  | madd na nb => exact twin_execMadd h hW na nb
  | rdrk r => exact twin_execRdrk h hW r
  | ctrb idx => exact twin_execCtrb h hW idx
  | ciph => exact twin_withBlock h fun x => twin_withSchedule h hW fun ks => twin_runPipeline h hW .forward ks x
  | iciph => exact twin_withBlock h fun x => twin_withSchedule h hW fun ks => twin_runPipeline h hW .inverse ks x
  | ecbe n => exact twin_counted h hW n.toNat fun ks ls => twin_runEcb h hW .forward ks ls
  | ecbd n => exact twin_counted h hW n.toNat fun ks ls => twin_runEcb h hW .inverse ks ls
  | ctrx n => exact twin_counted h hW n.toNat fun ks ls => twin_runCtr h hW ks ls
  | enc n => exact twin_counted h hW n.toNat fun ks ls => twin_dispatchMode h hW .forward n ks ls
  | dec n => exact twin_counted h hW n.toNat fun ks ls => twin_dispatchMode h hW .inverse n ks ls
  | ldkey => exact twin_execLdkey h
  | setmode alg mode => exact twin_execSetmode h alg mode
  | setiv => exact twin_execSetiv h
  | tron => exact twin_withNoPayload h (h.core ▸ twin_write (.tron s.core) .nil _ _)
  | troff => exact twin_withNoPayload h (h.core ▸ twin_write (.troff s.core) .nil _ _)

/-- What a command that is not refused does: R36's write, one lawful response, the end of the command. -/
theorem exec_next {i : Instr} {s t : State} (h : exec i s = .next t) :
    ∃ c r, CoreWrite i s.core c ∧ r.Lawful ∧ t = ({ s with core := c } : State).finish r := by
  rcases exec_twin i (State.SameVisible.refl s) with ⟨hr, -⟩ | ⟨c, r, hc, hl, hn, -⟩
  · cases h.symm.trans hr
  · exact ⟨c, r, hc, hl, Host.Outcome.next.inj (h.symm.trans hn)⟩

end Sys2Proof.Machine
end

section
/-! The statements of `10_state.md` about reset, about one step and about the write matrix (rules R28, R31, R34, R36, R39). -/

namespace Sys2Proof.Machine

/-! ## Reset -/

/-- Settles O9: reading off the reset values, the sixteen bytes of IV one by one. -/
theorem resetHoldsTheSpecifiedValues : Obligations.ResetHoldsTheSpecifiedValues := by
  unfold Obligations.ResetHoldsTheSpecifiedValues
  have hiv : ∀ k, State.reset.core.iv.byte k = 0 := by decide
  exact ⟨rfl, rfl, rfl, rfl, hiv, rfl, rfl⟩

theorem CoreState.reset_coherent : CoreState.reset.Coherent := fun _ hk => nomatch hk

/-- Settles O11: no key is loaded and no response is given. -/
theorem resetHasTheInvariant : Obligations.ResetHasTheInvariant := by
  unfold Obligations.ResetHasTheInvariant
  exact ⟨CoreState.reset_coherent, fun _ hr => nomatch hr⟩

/-! ## What each write keeps -/

theorem CoreWrite.coherent {i : Instr} {c c' : CoreState} (h : CoreWrite i c c') (hc : c.Coherent) : c'.Coherent := by
  cases h with
  | ldkey k =>
    intro k' hk'
    cases hk'
    rfl
  | keep | setmode | setiv | tron | troff => exact hc

theorem CoreWrite.keyValid {i : Instr} {c c' : CoreState} (h : CoreWrite i c c') (hc : c.keyValid = true) :
    c'.keyValid = true := by
  cases h with
  | ldkey k => rfl
  | keep | setmode | setiv | tron | troff => exact hc

theorem CoreWrite.mode_ne_noMode {i : Instr} {c c' : CoreState} (h : CoreWrite i c c') (hc : c.mode ≠ .noMode) :
    c'.mode ≠ .noMode := by
  cases h with
  | setmode hm => exact Mode.ne_noMode_of_ofSelector hm
  | keep | ldkey | setiv | tron | troff => exact hc

theorem CoreWrite.eq_of_not_writesCore {i : Instr} {c c' : CoreState} (h : CoreWrite i c c')
    (hi : writesCore i = false) : c' = c := by
  cases h with
  | keep => rfl
  | ldkey | setmode | setiv | tron | troff => cases hi

/-- Settles O13: the write of a completed command is one of `CoreWrite`, and each of these touches its own register. -/
theorem onlyFiveCommandsWriteRegisters : Obligations.OnlyFiveCommandsWriteRegisters := by
  unfold Obligations.OnlyFiveCommandsWriteRegisters
  intro i s t h
  obtain ⟨c, r, hc, -, rfl⟩ := exec_next h
  refine ⟨fun hi => hc.eq_of_not_writesCore hi, ?_, ?_, ?_, ?_⟩
  · rintro rfl
    cases hc <;> exact ⟨rfl, rfl, rfl⟩
  · rintro alg mode rfl
    cases hc <;> exact ⟨rfl, rfl, rfl⟩
  · rintro rfl
    cases hc <;> exact ⟨rfl, rfl, rfl⟩
  · rintro (rfl | rfl) <;> cases hc <;> exact ⟨rfl, rfl, rfl⟩

/-! ## One step -/

theorem forall_lawful_finish {s : State} (h : ∀ r ∈ s.responses, r.Lawful) {r : Response} (hr : r.Lawful) :
    ∀ q ∈ (s.finish r).responses, q.Lawful :=
  List.forall_mem_append.mpr ⟨h, List.forall_mem_singleton.mpr hr⟩

/-- Settles O12, by what a step can do: it waits, resets, rejects a word, or executes a command, whose write keeps the key
coherent and whose response is lawful. -/
theorem stepKeepsTheInvariant : Obligations.StepKeepsTheInvariant := by
  unfold Obligations.StepKeepsTheInvariant
  intro s t hinv h
  obtain ⟨hcore, hresponses⟩ := hinv
  obtain ⟨-, hs⟩ | ⟨rest, -, hs⟩ | ⟨c, rest, why, -, -, hs⟩ | ⟨c, rest, i, -, -, hs⟩ := step_cases s <;> rw [hs] at h
  · cases h
    exact ⟨hcore, hresponses⟩
  · cases h
    exact ⟨CoreState.reset_coherent, hresponses⟩
  · obtain ⟨-, rfl⟩ := illegalWord_next h
    exact ⟨hcore, forall_lawful_finish hresponses (errorResponse_lawful _)⟩
  · obtain ⟨core, r, hw, hr, rfl⟩ := exec_next h
    exact ⟨hw.coherent hcore, forall_lawful_finish hresponses hr⟩

/-- Settles O18: among the writes of a command none returns KEY_VALID to 0 or MODE to NONE. -/
theorem onlyResetClearsKeyAndMode : Obligations.OnlyResetClearsKeyAndMode := by
  unfold Obligations.OnlyResetClearsKeyAndMode
  intro s t h hnoreset
  obtain ⟨-, hs⟩ | ⟨rest, hp, -⟩ | ⟨c, rest, why, -, -, hs⟩ | ⟨c, rest, i, -, -, hs⟩ := step_cases s
  · cases hs.symm.trans h
    exact ⟨id, id⟩
  · exact absurd hp (hnoreset rest)
  · obtain ⟨-, rfl⟩ := illegalWord_next (hs.symm.trans h)
    exact ⟨id, id⟩
  · obtain ⟨core, r, hw, -, rfl⟩ := exec_next (hs.symm.trans h)
    exact ⟨hw.keyValid, hw.mode_ne_noMode⟩

/-! ## Two states that differ in the transient registers -/

theorem twin_illegalWord {s t : State} (h : s.SameVisible t) : Twin (Eq s.core) s t (illegalWord s) (illegalWord t) :=
  twin_withNoPayload h (twin_raise h rfl _)

/-- Settles O17: both states take the same event, and a command is refused in both or ends in both with the same response
and the same registers (`exec_twin`). -/
theorem transientRegistersAreInvisible : Obligations.TransientRegistersAreInvisible := by
  unfold Obligations.TransientRegistersAreInvisible
  intro s t h
  obtain ⟨hp, hs⟩ | ⟨rest, hp, hs⟩ | ⟨c, rest, why, hp, hw, hs⟩ | ⟨c, rest, i, hp, hw, hs⟩ := step_cases s <;>
    rw [hs] <;> rw [h.pending] at hp
  · rw [step_of_idle hp]
    exact h
  · rw [step_of_reset hp]
    exact h.resetEvent rest
  · rw [step_of_illegal hp hw]
    exact sameAnswer_of_twin (h.accept c rest) (twin_illegalWord (h.accept c rest))
  · rw [step_of_decodes hp hw]
    exact sameAnswer_of_twin (h.accept c rest) (exec_twin i (h.accept c rest))

end Sys2Proof.Machine
end

section
/-! The statement of `20_memory.md` about blocks as big-endian integers and the counter block (rules R54 and R194). -/

namespace Sys2Proof

/-! ## The bytes of a 128-bit vector -/

theorem Col.row_ofLane (v : Lane) (r : Fin 4) : (Col.ofLane v).row r = v.extractLsb' (24 - 8 * r.val) 8 := by
  match r with
  | 0 => rfl
  | 1 => rfl
  | 2 => rfl
  | 3 => rfl

theorem Block.col_ofBits (v : BitVec 128) (c : Fin 4) :
    (Block.ofBits v).col c = Col.ofLane (v.extractLsb' (96 - 32 * c.val) 32) := by
  match c with
  | 0 => rfl
  | 1 => rfl
  | 2 => rfl
  | 3 => rfl

/-- Row and column of byte k (R53) put it 8 * (15 - k) bits above the lowest. -/
theorem Block.byte_ofBits (v : BitVec 128) (k : Fin 16) :
    (Block.ofBits v).byte k = v.extractLsb' (8 * (15 - k.val)) 8 := by
  rw [Block.byte, Block.get, Block.col_ofBits, Col.row_ofLane]
  apply BitVec.eq_of_getLsbD_eq
  intro i hi
  simp only [BitVec.getLsbD_extractLsb', hi, decide_true, Bool.true_and]
  rw [decide_eq_true (by omega), Bool.true_and]
  congr 1
  omega

/-! ## A block as an integer -/

theorem Block.int_lt (b : Block) : b.int < 2 ^ 128 := b.toBits.isLt

@[simp] theorem Block.blk_int (b : Block) : Block.blk b.int = b := by
  rw [Block.blk, Block.int, BitVec.ofNat_toNat, BitVec.setWidth_eq, Block.ofBits_toBits]

/-- Above 2^128 as well: `blk` reduces its argument. -/
theorem Block.int_blk (v : Nat) : (Block.blk v).int = v % 2 ^ 128 := by
  rw [Block.int, Block.blk, Block.toBits_ofBits, BitVec.toNat_ofNat]

theorem Block.toNat_byte (b : Block) (k : Fin 16) : (b.byte k).toNat = b.int / 256 ^ (15 - k.val) % 256 := by
  calc (b.byte k).toNat
    _ = ((Block.ofBits b.toBits).byte k).toNat := by rw [Block.ofBits_toBits]
    _ = b.int / 2 ^ (8 * (15 - k.val)) % 2 ^ 8 := by
      rw [Block.byte_ofBits, BitVec.extractLsb'_toNat, Nat.shiftRight_eq_div_pow, Block.int]
    _ = b.int / 256 ^ (15 - k.val) % 256 := by rw [pow_mul, show 2 ^ 8 = 256 from rfl]

/-- The n lowest digits to the base B, put together again. -/
theorem sum_digits_eq_mod (B v n : Nat) : ∑ i ∈ Finset.range n, v / B ^ i % B * B ^ i = v % B ^ n := by
  induction n with
  | zero => simp [Nat.mod_one]
  | succ n ih => rw [Finset.sum_range_succ, ih, Nat.mod_pow_succ, Nat.mul_comm (B ^ n)]

/-- The bytes of a block are the sixteen digits of its integer to the base 256, the highest first. -/
theorem Block.int_eq_sum (b : Block) :
    b.int = ((List.finRange 16).map fun k => (b.byte k).toNat * 256 ^ (15 - k.val)).sum := by
  have hlt : b.int < 256 ^ 16 := b.int_lt
  calc b.int
    _ = b.int % 256 ^ 16 := (Nat.mod_eq_of_lt hlt).symm
    _ = ∑ i ∈ Finset.range 16, b.int / 256 ^ i % 256 * 256 ^ i := (sum_digits_eq_mod 256 b.int 16).symm
    _ = ∑ i ∈ Finset.range 16, b.int / 256 ^ (15 - i) % 256 * 256 ^ (15 - i) := (Finset.sum_range_reflect _ 16).symm
    _ = ∑ k : Fin 16, b.int / 256 ^ (15 - k.val) % 256 * 256 ^ (15 - k.val) := Finset.sum_range _
    _ = ((List.finRange 16).map fun k => (b.byte k).toNat * 256 ^ (15 - k.val)).sum := by
      simp only [Block.toNat_byte, Fin.sum_univ_def]

end Sys2Proof

namespace Sys2Proof.Machine

/-! ## The counter block -/

theorem int_counterBlock (iv : Block) (j : Nat) : (counterBlock iv j).int = (iv.int + j) % 2 ^ 128 := by
  rw [counterBlock, Block.int_blk, Nat.mod_mod]

theorem ctrBlock_of_neg (iv : Block) {idx : Int} (h : idx < 0) : ctrBlock iv idx = none := if_pos h

theorem ctrBlock_of_nonneg (iv : Block) {idx : Int} (h : 0 ≤ idx) :
    ctrBlock iv idx = some (counterBlock iv idx.toNat) := if_neg (Int.not_lt.mpr h)

/-- Settles O49: the bytes are the base-256 digits of the integer (`Block.toNat_byte`, `Block.int_eq_sum`), and the counter
block is a `blk` (`int_counterBlock`). -/
theorem counterBlockAddsModulo : Obligations.CounterBlockAddsModulo := by
  unfold Obligations.CounterBlockAddsModulo
  refine ⟨fun b => ⟨b.int_eq_sum, b.blk_int⟩, fun v hv => ?_, fun iv idx => ⟨ctrBlock_of_neg iv, fun h => ?_⟩⟩
  · have hint : (Block.blk v).int = v := by rw [Block.int_blk, Nat.mod_eq_of_lt hv]
    exact ⟨hint, fun k => by rw [Block.toNat_byte, hint]⟩
  · refine ⟨_, ctrBlock_of_nonneg iv h, ?_⟩
    rw [int_counterBlock]
    push_cast
    rw [Int.toNat_of_nonneg h]

end Sys2Proof.Machine
end

section
/-! The decoder against the encoder and against the opcode table (`30_encoding.md` rules R71 to R75, R79). -/

namespace Sys2Proof

/-! ## Immediates with reserved bits -/

theorem immB1_field {imm : BitVec 24} (h : imm.extractLsb' 8 16 = 0) : immB1 (imm.extractLsb' 0 8) = imm := by
  rw [immB1, ← h]
  exact BitVec.extractLsb'_append_extractLsb'

theorem immB2_fields {imm : BitVec 24} (h : imm.extractLsb' 16 8 = 0) :
    immB2 (imm.extractLsb' 8 8) (imm.extractLsb' 0 8) = imm := by
  have hlow : imm.extractLsb' 8 8 ++ imm.extractLsb' 0 8 = imm.extractLsb' 0 16 :=
    BitVec.extractLsb'_append_extractLsb'_eq_extractLsb' rfl
  rw [immB2, ← h, hlow]
  exact BitVec.extractLsb'_append_extractLsb'

theorem immR_field {imm : BitVec 24} (h : imm.extractLsb' 4 20 = 0) : immR (imm.extractLsb' 0 4) = imm := by
  rw [immR, ← h]
  exact BitVec.extractLsb'_append_extractLsb'

theorem immM2_fields (imm : BitVec 24) : immM2 (imm.extractLsb' 12 12) (imm.extractLsb' 0 12) = imm :=
  BitVec.extractLsb'_append_extractLsb'

/-! ## The decoder of a format on the encoder's immediate -/

theorem decodeB1_immB1 (f : Byte → Instr) (a : Byte) : decodeB1 f (immB1 a) = .ok (f a) := by
  rw [decodeB1, immB1, BitVec.extractLsb'_append_eq_left, BitVec.extractLsb'_append_eq_right, if_pos rfl]

theorem decodeB2_immB2 (f : Byte → Byte → Instr) (a b : Byte) : decodeB2 f (immB2 a b) = .ok (f a b) := by
  have hreserved : (immB2 a b).extractLsb' 16 8 = 0 := BitVec.extractLsb'_append_eq_left
  have ha : (immB2 a b).extractLsb' 8 8 = a := by
    rw [immB2, BitVec.extractLsb'_append_eq_of_add_le (by decide), BitVec.extractLsb'_append_eq_left]
  have hb : (immB2 a b).extractLsb' 0 8 = b := by
    rw [immB2, BitVec.extractLsb'_append_eq_of_add_le (by decide), BitVec.extractLsb'_append_eq_right]
  rw [decodeB2, hreserved, ha, hb, if_pos rfl]

theorem decodeR_immR {r : BitVec 4} (h : r.toNat ≤ 10) : decodeR (immR r) = .ok (.rdrk r) := by
  rw [decodeR, immR, BitVec.extractLsb'_append_eq_left, BitVec.extractLsb'_append_eq_right, if_pos rfl, if_pos h]

theorem decodeM2_immM2 (na nb : BitVec 12) : decodeM2 (immM2 na nb) = .ok (.madd na nb) := by
  rw [decodeM2, immM2, BitVec.extractLsb'_append_eq_left, BitVec.extractLsb'_append_eq_right]

/-- Settles O1: the two fields of an encoded word select the decoder of the command's format, which gives back the operands
of the immediate; without operands the word is one fixed word. -/
theorem decodeOfEncodedCommand : Obligations.DecodeOfEncodedCommand := by
  unfold Obligations.DecodeOfEncodedCommand
  intro i hi
  cases i with
  | add | mul | setmode => simp [encode, decode, opField_wordOf, immField_wordOf, decodeB2_immB2]
  | xtime | sbox | isbox => simp [encode, decode, opField_wordOf, immField_wordOf, decodeB1_immB1]
  | madd na nb => simp [encode, decode, opField_wordOf, immField_wordOf, decodeM2_immM2]
  | rdrk r => simp [encode, decode, opField_wordOf, immField_wordOf, decodeR_immR (of_decide_eq_true hi)]
  | ctrb | ecbe | ecbd | ctrx | enc | dec => simp [encode, decode, opField_wordOf, immField_wordOf]
  | subb | isubb | shrow | ishrow | mixc | imixc | ark | ldkey | rotw | subw | ciph | iciph | setiv | tron | troff => rfl

/-! ## The opcode table -/

theorem wordOf_inj {op op' : Byte} {imm imm' : BitVec 24} : wordOf op imm = wordOf op' imm' ↔ op = op' ∧ imm = imm' := by
  constructor
  · intro h
    exact ⟨by simpa only [opField_wordOf] using congrArg opField h,
      by simpa only [immField_wordOf] using congrArg immField h⟩
  · rintro ⟨rfl, rfl⟩
    rfl

theorem wordOf_and (op op' : Byte) (imm imm' : BitVec 24) :
    wordOf op imm &&& wordOf op' imm' = wordOf (op &&& op') (imm &&& imm') :=
  BitVec.and_append

/-- A row of the table fixes the opcode, and its mask picks out the reserved bits of the immediate. -/
theorem matches_iff {r : Row} (hr : r ∈ opcodeTable) (w : CommandWord) :
    r.matches w = true ↔ opField w = opField r.bits ∧ immField w &&& immField r.mask = 0 := by
  have hrow : ∀ r ∈ opcodeTable, r.mask = wordOf (BitVec.allOnes 8) (immField r.mask) ∧
      r.bits = wordOf (opField r.bits) 0 := by decide
  obtain ⟨hmask, hbits⟩ := hrow r hr
  have hand : w &&& r.mask = wordOf (opField w) (immField w &&& immField r.mask) := by
    calc w &&& r.mask
      _ = wordOf (opField w) (immField w) &&& wordOf (BitVec.allOnes 8) (immField r.mask) := by
        rw [wordOf_fields, ← hmask]
      _ = wordOf (opField w) (immField w &&& immField r.mask) := by rw [wordOf_and, BitVec.and_allOnes]
  rw [Row.matches, beq_iff_eq, hand]
  conv_lhs => rw [hbits]
  exact wordOf_inj

/-- A mask over the upper bits asks what the decoder asks of its reserved field. -/
theorem and_mask_eq_zero {m n : Nat} (v : BitVec (m + n)) :
    v &&& (BitVec.allOnes m ++ 0#n) = 0#(m + n) ↔ v.extractLsb' n m = 0#m := by
  have hand : v &&& (BitVec.allOnes m ++ 0#n) = v.extractLsb' n m ++ 0#n := by
    conv_lhs => rw [← BitVec.extractLsb'_append_extractLsb' (x := v)]
    rw [BitVec.and_append, BitVec.and_allOnes, BitVec.and_zero]
  rw [hand, ← BitVec.zero_append_zero, BitVec.append_left_inj]

theorem and_maskB1 {imm : BitVec 24} : imm &&& 0xFFFF00 = 0 ↔ imm.extractLsb' 8 16 = 0 :=
  and_mask_eq_zero (m := 16) (n := 8) imm

theorem and_maskB2 {imm : BitVec 24} : imm &&& 0xFF0000 = 0 ↔ imm.extractLsb' 16 8 = 0 :=
  and_mask_eq_zero (m := 8) (n := 16) imm

theorem and_maskR {imm : BitVec 24} : imm &&& 0xFFFFF0 = 0 ↔ imm.extractLsb' 4 20 = 0 :=
  and_mask_eq_zero (m := 20) (n := 4) imm

/-- Settles O4: two rows that a word matches have its opcode, and the 29 opcodes of the table are different. -/
theorem opcodeTableRowsAreDisjoint : Obligations.OpcodeTableRowsAreDisjoint := by
  unfold Obligations.OpcodeTableRowsAreDisjoint
  refine ⟨rfl, fun r₁ h₁ r₂ h₂ w hw₁ hw₂ => ?_⟩
  have hop : opField r₁.bits = opField r₂.bits :=
    ((matches_iff h₁ w).mp hw₁).1.symm.trans ((matches_iff h₂ w).mp hw₂).1
  have hnodup : (opcodeTable.map fun r => opField r.bits).Nodup := by decide
  exact List.inj_on_of_nodup_map hnodup h₁ h₂ hop

/-! ## Words that decode, and words of the table -/

theorem legalWord_iff (w : CommandWord) :
    legalWord w = true ↔
      ∃ r ∈ opcodeTable, r.matches w = true ∧ (r.format = .r → ((immField w).extractLsb' 0 4).toNat ≤ 10) := by
  have hlow : (immField w).extractLsb' 0 4 = w.extractLsb' 0 4 := BitVec.extractLsb'_extractLsb'_of_le (by decide)
  simp only [legalWord, List.any_eq_true, Bool.and_eq_true, Bool.or_eq_true, bne_iff_ne, decide_eq_true_eq, hlow,
    imp_iff_not_or, ne_eq]

theorem reserved_of_decodeNoImm {i j : Instr} {imm : BitVec 24} (h : decodeNoImm i imm = .ok j) :
    imm &&& 0xFFFFFF = 0 := by
  unfold decodeNoImm at h
  split at h
  · next himm => rw [himm]; rfl
  · cases h

theorem reserved_of_decodeB1 {f : Byte → Instr} {i : Instr} {imm : BitVec 24} (h : decodeB1 f imm = .ok i) :
    imm &&& 0xFFFF00 = 0 := by
  unfold decodeB1 at h
  split at h
  · exact and_maskB1.mpr ‹_›
  · cases h

theorem reserved_of_decodeB2 {f : Byte → Byte → Instr} {i : Instr} {imm : BitVec 24} (h : decodeB2 f imm = .ok i) :
    imm &&& 0xFF0000 = 0 := by
  unfold decodeB2 at h
  split at h
  · exact and_maskB2.mpr ‹_›
  · cases h

theorem legalWord_of_row {w : CommandWord} {op : Nat} {mask : BitVec 24}
    (hrow : ∃ r ∈ opcodeTable, r.format ≠ .r ∧ (opField r.bits).toNat = op ∧ immField r.mask = mask)
    (hop : (opField w).toNat = op) (himm : immField w &&& mask = 0) : legalWord w = true := by
  obtain ⟨r, hr, hf, rfl, rfl⟩ := hrow
  exact (legalWord_iff w).mpr
    ⟨r, hr, (matches_iff hr w).mpr ⟨BitVec.eq_of_toNat_eq hop, himm⟩, fun h => absurd h hf⟩

theorem legalWord_of_decodeR {w : CommandWord} {i : Instr} (hop : (opField w).toNat = 0x41)
    (h : decodeR (immField w) = .ok i) : legalWord w = true := by
  unfold decodeR at h
  split at h
  · next himm =>
    split at h
    · next hr =>
      have hmem : (⟨"RDRK", .r, 0x41000000, 0xFFFFFFF0⟩ : Row) ∈ opcodeTable := by decide
      exact (legalWord_iff w).mpr
        ⟨_, hmem, (matches_iff hmem w).mpr ⟨BitVec.eq_of_toNat_eq hop, and_maskR.mpr himm⟩, fun _ => hr⟩
    · cases h
  · cases h

/-- The rows of `decode` by format: B2 and M, B1, R, the formats without a reserved bit, no row at all, and the formats
without an immediate. -/
theorem legalWord_of_decode {w : CommandWord} {i : Instr} (h : decode w = .ok i) : legalWord w = true := by
  unfold decode at h
  split at h
  case h_1 hop | h_3 hop | h_20 hop => exact legalWord_of_row (by decide) hop (reserved_of_decodeB2 h)
  case h_2 hop | h_5 hop | h_6 hop => exact legalWord_of_row (by decide) hop (reserved_of_decodeB1 h)
  case h_15 hop => exact legalWord_of_decodeR hop h
  case h_4 hop | h_22 hop | h_23 hop | h_24 hop | h_25 hop | h_26 hop | h_27 hop =>
    exact legalWord_of_row (by decide) hop BitVec.and_zero
  case h_30 => cases h
  all_goals
    rename_i hop
    exact legalWord_of_row (by decide) hop (reserved_of_decodeNoImm h)

/-- What a row promises: each word in it, of a round index in range where the row is RDRK's, is a command's word. -/
def Row.Covered (r : Row) : Prop :=
  ∀ imm : BitVec 24, imm &&& immField r.mask = 0 → (r.format = .r → (imm.extractLsb' 0 4).toNat ≤ 10) →
    ∃ i : Instr, i.wellFormed = true ∧ encode i = wordOf (opField r.bits) imm

section
variable {r : Row}

theorem covered_noImm (i : Instr) (hm : immField r.mask = 0xFFFFFF)
    (hi : i.wellFormed = true ∧ encode i = wordOf (opField r.bits) 0) : r.Covered := by
  intro imm himm _
  rw [hm] at himm
  have h0 : imm = 0 := (BitVec.and_allOnes (x := imm)).symm.trans himm
  exact ⟨i, h0 ▸ hi⟩

theorem covered_b1 (f : Byte → Instr) (hm : immField r.mask = 0xFFFF00)
    (hf : ∀ a, (f a).wellFormed = true ∧ encode (f a) = wordOf (opField r.bits) (immB1 a)) : r.Covered := by
  intro imm himm _
  rw [hm, and_maskB1] at himm
  exact ⟨f _, immB1_field himm ▸ hf _⟩

theorem covered_b2 (f : Byte → Byte → Instr) (hm : immField r.mask = 0xFF0000)
    (hf : ∀ a b, (f a b).wellFormed = true ∧ encode (f a b) = wordOf (opField r.bits) (immB2 a b)) : r.Covered := by
  intro imm himm _
  rw [hm, and_maskB2] at himm
  exact ⟨f _ _, immB2_fields himm ▸ hf _ _⟩

theorem covered_wide (f : BitVec 24 → Instr)
    (hf : ∀ imm, (f imm).wellFormed = true ∧ encode (f imm) = wordOf (opField r.bits) imm) : r.Covered :=
  fun imm _ _ => ⟨f imm, hf imm⟩

theorem covered_madd : Row.Covered ⟨"MADD", .m2, 0x13000000, 0xFF000000⟩ :=
  fun imm _ _ => ⟨.madd _ _, rfl, congrArg (wordOf 0x13) (immM2_fields imm)⟩

theorem covered_rdrk : Row.Covered ⟨"RDRK", .r, 0x41000000, 0xFFFFFFF0⟩ := by
  intro imm himm hr
  exact ⟨.rdrk _, decide_eq_true (hr rfl), congrArg (wordOf 0x41) (immR_field (and_maskR.mp himm))⟩

end

theorem unitRows_covered : ∀ r ∈ unitRows, r.Covered := by
  simp only [unitRows, List.forall_mem_cons]
  exact ⟨covered_b2 .add rfl fun _ _ => ⟨rfl, rfl⟩, covered_b1 .xtime rfl fun _ => ⟨rfl, rfl⟩,
    covered_b2 .mul rfl fun _ _ => ⟨rfl, rfl⟩, covered_madd, covered_b1 .sbox rfl fun _ => ⟨rfl, rfl⟩,
    covered_b1 .isbox rfl fun _ => ⟨rfl, rfl⟩, covered_noImm .subb rfl ⟨rfl, rfl⟩, covered_noImm .isubb rfl ⟨rfl, rfl⟩,
    covered_noImm .shrow rfl ⟨rfl, rfl⟩, covered_noImm .ishrow rfl ⟨rfl, rfl⟩, covered_noImm .mixc rfl ⟨rfl, rfl⟩,
    covered_noImm .imixc rfl ⟨rfl, rfl⟩, covered_noImm .ark rfl ⟨rfl, rfl⟩, List.forall_mem_nil _⟩

theorem keyRows_covered : ∀ r ∈ keyRows, r.Covered := by
  simp only [keyRows, List.forall_mem_cons]
  exact ⟨covered_noImm .ldkey rfl ⟨rfl, rfl⟩, covered_rdrk, covered_noImm .rotw rfl ⟨rfl, rfl⟩,
    covered_noImm .subw rfl ⟨rfl, rfl⟩, covered_noImm .ciph rfl ⟨rfl, rfl⟩, covered_noImm .iciph rfl ⟨rfl, rfl⟩,
    List.forall_mem_nil _⟩

theorem modeRows_covered : ∀ r ∈ modeRows, r.Covered := by
  simp only [modeRows, List.forall_mem_cons]
  exact ⟨covered_b2 .setmode rfl fun _ _ => ⟨rfl, rfl⟩, covered_noImm .setiv rfl ⟨rfl, rfl⟩,
    covered_wide .ctrb fun _ => ⟨rfl, rfl⟩, covered_wide .ecbe fun _ => ⟨rfl, rfl⟩,
    covered_wide .ecbd fun _ => ⟨rfl, rfl⟩, covered_wide .ctrx fun _ => ⟨rfl, rfl⟩,
    covered_wide .enc fun _ => ⟨rfl, rfl⟩, covered_wide .dec fun _ => ⟨rfl, rfl⟩,
    covered_noImm .tron rfl ⟨rfl, rfl⟩, covered_noImm .troff rfl ⟨rfl, rfl⟩,
    List.forall_mem_nil _⟩

theorem opcodeTable_covered : ∀ r ∈ opcodeTable, r.Covered :=
  List.forall_mem_append.mpr ⟨List.forall_mem_append.mpr ⟨unitRows_covered, keyRows_covered⟩, modeRows_covered⟩

/-- The words of the table are the encoded words. -/
theorem exists_encode_of_legalWord {w : CommandWord} (h : legalWord w = true) :
    ∃ i : Instr, i.wellFormed = true ∧ encode i = w := by
  obtain ⟨r, hr, hm, hround⟩ := (legalWord_iff w).mp h
  obtain ⟨hop, himm⟩ := (matches_iff hr w).mp hm
  obtain ⟨i, hi, he⟩ := opcodeTable_covered r hr (immField w) himm hround
  exact ⟨i, hi, by rw [he, ← hop, wordOf_fields]⟩

/-- Settles O2: a word that decodes is in the table, hence the word of some command; and that command is the one it decodes
to, by O1. -/
theorem encodeOfDecodedWord : Obligations.EncodeOfDecodedWord := by
  unfold Obligations.EncodeOfDecodedWord
  intro w i h
  obtain ⟨j, hj, rfl⟩ := exists_encode_of_legalWord (legalWord_of_decode h)
  obtain rfl : j = i := Decoded.ok.inj ((decodeOfEncodedCommand j hj).symm.trans h)
  exact ⟨rfl, hj⟩

/-- Settles O5, by running the decoder on the eleven words. -/
theorem writtenWordsDecode : Obligations.WrittenWordsDecode := by
  unfold Obligations.WrittenWordsDecode
  decide

/-! ## The end of a command in a stream -/

theorem payloadLen_of_ok {w : CommandWord} {i : Instr} (h : decode w = .ok i) : payloadLen w = i.dinLen := by
  simp [payloadLen, h]

theorem payloadLen_of_illegal {w : CommandWord} {why : Illegal} (h : decode w = .illegal why) : payloadLen w = 0 := by
  simp [payloadLen, h]

/-- Settles O6: the columns taken after the word are the payload, and what is left is the rest of the stream. -/
theorem commandEndsAfterItsPayload : Obligations.CommandEndsAfterItsPayload := by
  unfold Obligations.CommandEndsAfterItsPayload
  intro c rest h
  have hlen : payloadLen c.word ≤ (c.din ++ rest).length := by simp [h]
  rw [Command.lanes, List.cons_append, nextCommand, if_pos hlen, List.take_left' h, List.drop_left' h]

end Sys2Proof

namespace Sys2Proof.Machine

/-! ## Words at the port -/

theorem acceptedAs_of_decode {w : CommandWord} {i : Instr} (h : decode w = .ok i) : AcceptedAs w i :=
  fun _ _ _ hp => step_of_decodes hp h

theorem rejected_of_decode {w : CommandWord} {why : Illegal} (h : decode w = .illegal why) : Rejected w := by
  intro s rest hp
  rw [step_of_illegal hp h, illegalWord_of_nil (s.accept_din _ rest), raise_eq]

/-- Settles O3: a word of the table is an encoded word and decodes (O1); a word that decodes is in the table. -/
theorem illegalWordsAreRejected : Obligations.IllegalWordsAreRejected := by
  unfold Obligations.IllegalWordsAreRejected
  refine fun w => ⟨fun h => ?_, fun h => ?_, rfl⟩
  · obtain ⟨i, hi, rfl⟩ := exists_encode_of_legalWord h
    exact ⟨i, hi, acceptedAs_of_decode (decodeOfEncodedCommand i hi)⟩
  · cases hw : decode w with
    | ok i => cases h.symm.trans (legalWord_of_decode hw)
    | illegal why => exact ⟨rejected_of_decode hw, payloadLen_of_illegal hw⟩

end Sys2Proof.Machine
end

section
/-! The pseudo-instructions of the host's side (`30_encoding.md` rules R73 and R81). -/

namespace Sys2Proof.Machine

/-- Text after "AES128/" that names no mode selects the algorithm with the mode code 0x00. -/
theorem transformCodes_of_other_mode {t : String} {name : List Char} (h : t.toList = "AES128/".toList ++ name)
    (hecb : name ≠ "ECB".toList) (hctr : name ≠ "CTR".toList) : transformCodes t = (0x01, 0x00) := by
  have h1 : t.toList ≠ "AES128/ECB".toList := fun he => hecb (List.append_cancel_left (h.symm.trans he))
  have h2 : t.toList ≠ "AES128/CTR".toList := fun he => hctr (List.append_cancel_left (h.symm.trans he))
  have h3 : t.toList.take 7 = "AES128/".toList := by rw [h]; exact List.take_left' rfl
  simp only [transformCodes, if_neg h1, if_neg h2, if_pos h3]

theorem transformCodes_of_other_algorithm {t : String} (h : ∀ name : List Char, t.toList ≠ "AES128/".toList ++ name) :
    transformCodes t = (0x00, 0x00) := by
  have h1 : t.toList ≠ "AES128/ECB".toList := h "ECB".toList
  have h2 : t.toList ≠ "AES128/CTR".toList := h "CTR".toList
  have h3 : t.toList.take 7 ≠ "AES128/".toList := fun he =>
    h (t.toList.drop 7) (by rw [← he, List.take_append_drop])
  simp only [transformCodes, if_neg h1, if_neg h2, if_neg h3]

theorem counted_of_lt (f : BitVec 24 → Instr) {data : List Block} (h : 4 * data.length < 2 ^ 24) :
    counted f data = some [⟨encode (f (BitVec.ofNat 24 (4 * data.length))), lanesOf data⟩] := if_pos h

theorem counted_of_le (f : BitVec 24 → Instr) {data : List Block} (h : 2 ^ 24 ≤ 4 * data.length) :
    counted f data = none := if_neg (Nat.not_lt.mpr h)

theorem expand_transform {t : String} {alg mode : Byte} (h : transformCodes t = (alg, mode)) :
    (Pseudo.transform t).expand = some [⟨encode (.setmode alg mode), []⟩] := by
  rw [Pseudo.expand, h, bare]

/-- Settles O60: `transformCodes` and `counted` make the two case distinctions; the other rows are single commands. -/
theorem pseudoInstructionsExpand : Obligations.PseudoInstructionsExpand := by
  unfold Obligations.PseudoInstructionsExpand
  refine ⟨⟨rfl, rfl, fun t name h hecb hctr => ?_, fun t h => ?_⟩, fun _ => rfl, rfl, fun _ => rfl,
    fun data => ⟨fun h => ⟨counted_of_lt .enc h, counted_of_lt .dec h⟩,
      fun h => ⟨counted_of_le .enc h, counted_of_le .dec h⟩⟩, rfl, rfl, rfl⟩
  · exact expand_transform (transformCodes_of_other_mode h hecb hctr)
  · exact expand_transform (transformCodes_of_other_algorithm h)

end Sys2Proof.Machine
end

section
/-! When a command executes and what its one response holds (`30_encoding.md` rules R72, R76 and R77; the trace of
`47_trace.md` rules R224 to R227). -/

namespace Sys2Proof.Machine

/-! ## The format of a response -/

/-- A response that command `i` may give: an error carries nothing but its status (R250); a success has the output length of
R72, and 52 trace records for each block that a pipeline ran on with tracing enabled (R224 to R227). -/
structure Response.Fits (i : Instr) (traceEn : Bool) (r : Response) : Prop where
  error : ∀ k, r.status = .error k → r = errorResponse k
  dout : r.status = .ok → r.dout.length = i.doutLen
  trace : r.status = .ok →
    r.trace.length = if traceEn = true ∧ runsPipeline i = true then 52 * (i.dinLen / 4) else 0
  rb : givesByte i = false → r.rb = 0x00

theorem errorResponse_fits (i : Instr) (traceEn : Bool) (k : ErrorKind) : (errorResponse k).Fits i traceEn where
  error _ hk := by rw [Status.error.inj hk]
  dout h := nomatch h
  trace h := nomatch h
  rb _ := rfl

/-! ## How a command ends -/

/-- The answer is a next state in which the command has ended with a response that `P` allows. -/
def Ends (s : State) (P : Response → Prop) (a : Answer) : Prop :=
  ∃ c r, P r ∧ a = .next (({ s with core := c } : State).finish r)

/-- The answer ends the command when DIN has `n` columns and is the refusal of R76 otherwise. -/
def Takes (s : State) (n : Nat) (P : Response → Prop) (a : Answer) : Prop :=
  (s.din.length = n → Ends s P a) ∧ (s.din.length ≠ n → a = .refused .payloadLength)

/-- A payload of four columns is one block. -/
theorem exists_lanes {ls : List Lane} (h : ls.length = 4) : ∃ x : Block, ls = x.lanes := by
  obtain ⟨bs, hb, rfl⟩ := exists_lanesOf (n := 1) h
  obtain ⟨x, rfl⟩ := List.length_eq_one_iff.mp hb
  exact ⟨x, by simp⟩

/-- A payload of eight columns is two blocks. -/
theorem exists_lanes_append {ls : List Lane} (h : ls.length = 8) : ∃ x k : Block, ls = x.lanes ++ k.lanes := by
  obtain ⟨bs, hb, rfl⟩ := exists_lanesOf (n := 2) h
  obtain ⟨x, k, rfl⟩ := List.length_eq_two.mp hb
  exact ⟨x, k, by simp⟩

theorem length_blocksOf {n : Nat} {ls : List Lane} (h : ls.length = 4 * n) : (blocksOf ls).length = n := by
  obtain ⟨bs, hb, rfl⟩ := exists_lanesOf h
  rw [blocksOf_lanesOf, hb]

/-! ### Operand forms -/

section
variable {s : State} {P : Response → Prop}

theorem takes_withNoPayload {a : Answer} (ha : Ends s P a) : Takes s 0 P (withNoPayload s a) := by
  constructor
  · intro h
    rwa [withNoPayload_of_nil (List.eq_nil_of_length_eq_zero h)]
  · intro hn
    unfold withNoPayload
    split
    · next h => exact absurd (congrArg List.length h) hn
    · rfl

theorem takes_withCol {f : Col → Answer} (hf : ∀ w, Ends s P (f w)) : Takes s 1 P (withCol s f) := by
  constructor
  · intro h
    obtain ⟨l, hl⟩ := List.length_eq_one_iff.mp h
    rw [withCol_of_lane hl]
    exact hf _
  · intro hn
    unfold withCol
    split
    · next h => exact absurd (congrArg List.length h) hn
    · rfl

theorem takes_withBlock {f : Block → Answer} (hf : ∀ x, Ends s P (f x)) : Takes s 4 P (withBlock s f) := by
  constructor
  · intro h
    obtain ⟨x, hx⟩ := exists_lanes h
    rw [withBlock_of_lanes hx]
    exact hf x
  · intro hn
    unfold withBlock
    split
    · next h => exact absurd (congrArg List.length h) hn
    · rfl

theorem takes_withTwoBlocks {f : Block → Block → Answer} (hf : ∀ x k, Ends s P (f x k)) :
    Takes s 8 P (withTwoBlocks s f) := by
  constructor
  · intro h
    obtain ⟨x, k, hxk⟩ := exists_lanes_append h
    rw [withTwoBlocks_of_lanes hxk]
    exact hf x k
  · intro hn
    unfold withTwoBlocks
    split
    · next h => exact absurd (congrArg List.length h) hn
    · rfl

theorem takes_withLanes {n : Nat} {f : List Lane → Answer} (hf : ∀ ls, ls.length = n → Ends s P (f ls)) :
    Takes s n P (withLanes n s f) := by
  constructor
  · intro h
    rw [withLanes_of_length h]
    exact hf s.din h
  · intro hn
    exact if_neg hn

end

/-! ### Checks -/

section
variable {s : State} {i : Instr} {traceEn : Bool}

theorem ends_raise (k : ErrorKind) : Ends s (Response.Fits i traceEn) (raise k s) :=
  ⟨s.core, _, errorResponse_fits i traceEn k, rfl⟩

theorem ends_withSchedule {f : Schedule → Answer} (hf : ∀ ks, Ends s (Response.Fits i traceEn) (f ks)) :
    Ends s (Response.Fits i traceEn) (withSchedule s f) := by
  rcases withSchedule_cases s f with ⟨-, h⟩ | ⟨k, -, h⟩ <;> rw [h]
  · exact ends_raise _
  · exact hf k.ks

theorem ends_withShape {n : Nat} {a : Answer} (ha : n % 4 = 0 → Ends s (Response.Fits i traceEn) a) :
    Ends s (Response.Fits i traceEn) (withShape n s a) := by
  rcases withShape_cases n s a with ⟨-, h⟩ | ⟨-, h4, h⟩ <;> rw [h]
  · exact ends_raise _
  · exact ha h4

/-! ### Success -/

theorem ends_respond {rb : Byte} {dout : List Lane} {trace : List TraceRecord} {c : CoreState} {w : Working}
    (hrb : givesByte i = false → rb = 0x00) (hdout : dout.length = i.doutLen)
    (htrace : trace.length = if traceEn = true ∧ runsPipeline i = true then 52 * (i.dinLen / 4) else 0) :
    Ends s (Response.Fits i traceEn) (respond rb dout trace { s with core := c, work := w }) :=
  ⟨c, okResponse rb dout trace, ⟨fun _ hk => (nomatch hk), fun _ => hdout, fun _ => htrace, hrb⟩, rfl⟩

/-- The end of a command that runs no pipeline. -/
theorem ends_plain (hrun : runsPipeline i = false) {rb : Byte} {dout : List Lane} {c : CoreState} {w : Working}
    (hrb : givesByte i = false → rb = 0x00) (hdout : dout.length = i.doutLen) :
    Ends s (Response.Fits i traceEn) (respond rb dout [] { s with core := c, work := w }) :=
  ends_respond hrb hdout (by simp [hrun])

end

/-! ### Pipelines and sequencers -/

theorem length_trace_runPipeline (dir : Direction) (ks : Schedule) (en : Bool) (x : Block) (w : Working) :
    (runPipeline dir ks en x w).2.length = if en then 52 else 0 := by
  rw [runPipeline_eq]
  cases en with
  | false => rfl
  | true => exact length_pipelineTrace dir x ks

theorem ends_runPipeline {i : Instr} (hi : i = .ciph ∨ i = .iciph) (dir : Direction) (ks : Schedule) (x : Block)
    (s : State) :
    Ends s (Response.Fits i s.core.traceEn)
      (respond 0x00 (runPipeline dir ks s.core.traceEn x s.work).1.state.lanes
        (runPipeline dir ks s.core.traceEn x s.work).2
        { s with work := (runPipeline dir ks s.core.traceEn x s.work).1 }) := by
  refine ends_respond (fun _ => rfl) ?_ ?_
  · rcases hi with rfl | rfl <;> rfl
  · rw [length_trace_runPipeline]
    rcases hi with rfl | rfl <;> simp [runsPipeline, Instr.dinLen]

theorem length_trace_ecbStep (dir : Direction) (ks : Schedule) (en : Bool) (b : Block) (w : Working) :
    (ecbStep dir ks en b w).2.2.length = if en then 52 else 0 :=
  length_trace_runPipeline dir ks en b w

theorem length_trace_ctrStep (iv : Block) (ks : Schedule) (en : Bool) (b : Block) (w : Working) :
    (ctrStep iv ks en b w).2.2.length = if en then 52 else 0 := by
  simp only [ctrStep]
  exact length_trace_runPipeline .forward ks en _ _

section
variable {step : Block → Working → Working × Block × List TraceRecord}

theorem length_output_sequenceBlocks (bs : List Block) (w : Working) :
    (sequenceBlocks step bs w).2.1.length = bs.length := by
  induction bs generalizing w with
  | nil => rfl
  | cons b bs ih => simp [sequenceBlocks, ih]

theorem length_trace_sequenceBlocks {m : Nat} (hstep : ∀ b w, (step b w).2.2.length = m) (bs : List Block)
    (w : Working) : (sequenceBlocks step bs w).2.2.length = m * bs.length := by
  induction bs generalizing w with
  | nil => rfl
  | cons b bs ih => simp [sequenceBlocks, hstep, ih, Nat.mul_succ, Nat.add_comm]

end

/-- The counted commands answer as many columns as they take, give no byte and run a pipeline. -/
theorem counted_of_format {i : Instr} (h : i.format = .c) :
    i.doutLen = i.dinLen ∧ givesByte i = false ∧ runsPipeline i = true := by
  cases i with
  | ecbe | ecbd | ctrx | enc | dec => exact ⟨rfl, rfl, rfl⟩
  | _ => cases h

section
variable {s : State} {i : Instr} {ls : List Lane} (hc : i.format = .c) (hls : ls.length = i.dinLen)
  (h4 : i.dinLen % 4 = 0)
include hc hls h4

theorem ends_runSequencer {step : Block → Working → Working × Block × List TraceRecord}
    (hstep : ∀ b w, (step b w).2.2.length = if s.core.traceEn then 52 else 0) :
    Ends s (Response.Fits i s.core.traceEn) (runSequencer step ls s) := by
  obtain ⟨hdout, hbyte, hrun⟩ := counted_of_format hc
  have hblocks : (blocksOf ls).length = i.dinLen / 4 := length_blocksOf (by omega)
  refine ends_respond (fun _ => rfl) ?_ ?_
  · rw [length_lanesOf, length_output_sequenceBlocks, hblocks, hdout]
    omega
  · rw [length_trace_sequenceBlocks hstep, hblocks]
    simp [hrun]

theorem ends_runEcb (dir : Direction) (ks : Schedule) :
    Ends s (Response.Fits i s.core.traceEn) (runEcb dir ks ls s) :=
  ends_runSequencer hc hls h4 (length_trace_ecbStep dir ks s.core.traceEn)

theorem ends_runCtr (ks : Schedule) : Ends s (Response.Fits i s.core.traceEn) (runCtr ks ls s) :=
  ends_runSequencer hc hls h4 (length_trace_ctrStep s.core.iv ks s.core.traceEn)

theorem ends_dispatchMode (dir : Direction) (n : BitVec 24) (ks : Schedule) :
    Ends s (Response.Fits i s.core.traceEn) (dispatchMode dir n ks ls s) := by
  unfold dispatchMode
  split
  · exact ends_runEcb hc hls h4 dir ks
  · cases s.core.mode with
    | ecb => exact ends_runEcb hc hls h4 dir ks
    | ctr => exact ends_runCtr hc hls h4 ks
    | noMode => exact ends_raise _

end

/-! ### Every command -/

/-- The prelude of the counted commands: the columns, the key, the shape (R200 to R205). -/
theorem takes_counted {s : State} {i : Instr} {f : Schedule → List Lane → Answer}
    (hf : ∀ ks ls, ls.length = i.dinLen → i.dinLen % 4 = 0 → Ends s (Response.Fits i s.core.traceEn) (f ks ls)) :
    Takes s i.dinLen (Response.Fits i s.core.traceEn)
      (withLanes i.dinLen s fun ls => withSchedule s fun ks => withShape i.dinLen s (f ks ls)) :=
  takes_withLanes fun ls hls => ends_withSchedule fun ks => ends_withShape fun h4 => hf ks ls hls h4

theorem length_of_madd {a b y : Matrix} (h : madd a b = some y) : y.length = a.length := by
  unfold madd at h
  split at h
  · next hab =>
    cases h
    simp [hab]
  · cases h

theorem takes_execMadd (na nb : BitVec 12) (s : State) :
    Takes s (na.toNat + nb.toNat) (Response.Fits (.madd na nb) s.core.traceEn) (execMadd na nb s) := by
  refine takes_withLanes fun ls hls => ?_
  cases hy : madd (matrixOf (ls.take na.toNat)) (matrixOf (ls.drop na.toNat)) with
  | none => exact ends_raise _
  | some y =>
    have hlen : (lanesOfMatrix y).length = na.toNat := by
      simp [lanesOfMatrix, length_of_madd hy, matrixOf, hls]
    exact ends_plain rfl (fun _ => rfl) hlen

theorem takes_execRdrk (r : BitVec 4) (s : State) :
    Takes s 0 (Response.Fits (.rdrk r) s.core.traceEn) (execRdrk r s) := by
  refine takes_withNoPayload ?_
  split
  · exact ends_withSchedule fun ks => ends_plain rfl (fun _ => rfl) rfl
  · exact ends_raise _

theorem takes_execCtrb (idx : BitVec 24) (s : State) :
    Takes s 0 (Response.Fits (.ctrb idx) s.core.traceEn) (execCtrb idx s) := by
  refine takes_withNoPayload ?_
  cases ctrBlock s.core.iv (sint24 idx) with
  | none => exact ends_raise _
  | some b => exact ends_plain rfl (fun _ => rfl) rfl

theorem takes_execSetmode (alg mode : Byte) (s : State) :
    Takes s 0 (Response.Fits (.setmode alg mode) s.core.traceEn) (execSetmode alg mode s) := by
  refine takes_withNoPayload ?_
  split
  · exact ends_raise _
  · cases Mode.ofSelector mode with
    | none => exact ends_raise _
    | some m => exact ends_plain rfl (fun _ => rfl) rfl

/-- Each of the 29 commands executes exactly on a payload of the announced length, and then ends with one response of its
format. -/
theorem exec_takes (i : Instr) (s : State) :
    Takes s i.dinLen (Response.Fits i s.core.traceEn) (exec i s) := by
  unfold exec
  cases i with
  | add | xtime | mul | sbox | isbox => exact takes_withNoPayload (ends_plain rfl nofun rfl)
  | subb | isubb | shrow | ishrow | mixc | imixc | ldkey | setiv =>
    exact takes_withBlock fun _ => ends_plain rfl (fun _ => rfl) rfl
  | ark => exact takes_withTwoBlocks fun _ _ => ends_plain rfl (fun _ => rfl) rfl
  | rotw | subw => exact takes_withCol fun _ => ends_plain rfl (fun _ => rfl) rfl
  | tron | troff => exact takes_withNoPayload (ends_plain rfl (fun _ => rfl) rfl)
  | madd na nb => exact takes_execMadd na nb s
  | rdrk r => exact takes_execRdrk r s
  | ctrb idx => exact takes_execCtrb idx s
  | setmode alg mode => exact takes_execSetmode alg mode s
  | ciph => exact takes_withBlock fun x => ends_withSchedule fun ks => ends_runPipeline (.inl rfl) .forward ks x s
  | iciph => exact takes_withBlock fun x => ends_withSchedule fun ks => ends_runPipeline (.inr rfl) .inverse ks x s
  | ecbe n => exact takes_counted fun ks ls hls h4 => ends_runEcb rfl hls h4 .forward ks
  | ecbd n => exact takes_counted fun ks ls hls h4 => ends_runEcb rfl hls h4 .inverse ks
  | ctrx n => exact takes_counted fun ks ls hls h4 => ends_runCtr rfl hls h4 ks
  | enc n => exact takes_counted fun ks ls hls h4 => ends_dispatchMode rfl hls h4 .forward n ks
  | dec n => exact takes_counted fun ks ls hls h4 => ends_dispatchMode rfl hls h4 .inverse n ks

/-! ## The two statements -/

theorem Takes.decides {s : State} {n : Nat} {P : Response → Prop} {a : Answer} (h : Takes s n P a) :
    (s.din.length = n → ∃ t, a = .next t) ∧ (s.din.length ≠ n → a = .refused .payloadLength) := by
  refine ⟨fun hn => ?_, h.2⟩
  obtain ⟨c, r, -, ha⟩ := h.1 hn
  exact ⟨_, ha⟩

/-- What a command that is not refused does: it ends with a response of its format. -/
theorem exec_next_fits {i : Instr} {s t : State} (h : exec i s = .next t) :
    ∃ c r, r.Fits i s.core.traceEn ∧ t = ({ s with core := c } : State).finish r := by
  by_cases hlen : s.din.length = i.dinLen
  · obtain ⟨c, r, hr, ha⟩ := (exec_takes i s).1 hlen
    exact ⟨c, r, hr, Host.Outcome.next.inj (h.symm.trans ha)⟩
  · cases h.symm.trans ((exec_takes i s).2 hlen)

/-- An illegal word announces no columns (R75, R248). -/
theorem takes_illegalWord (s : State) : Takes s 0 (· = errorResponse .illegalCommand) (illegalWord s) :=
  takes_withNoPayload ⟨s.core, _, rfl, rfl⟩

/-- Settles O8: an instruction is decided by `exec_takes`; at the port the word decodes, and its instruction does, or it is illegal
(`takes_illegalWord`). -/
theorem payloadLengthDecidesExecution : Obligations.PayloadLengthDecidesExecution := by
  unfold Obligations.PayloadLengthDecidesExecution
  refine ⟨fun i s => (exec_takes i s).decides, fun s c rest hp => ?_⟩
  cases hw : decode c.word with
  | ok i =>
    rw [step_of_decodes hp hw, payloadLen_of_ok hw]
    exact (exec_takes i (s.accept c rest)).decides
  | illegal why =>
    rw [step_of_illegal hp hw, payloadLen_of_illegal hw]
    exact (takes_illegalWord (s.accept c rest)).decides

/-- Settles O15, by the response of `exec_takes`; a trace that is not empty would need a pipeline and TRACE_EN = 1. -/
theorem everyCommandGivesOneResponse : Obligations.EveryCommandGivesOneResponse := by
  unfold Obligations.EveryCommandGivesOneResponse
  intro i s t h
  obtain ⟨c, r, hr, rfl⟩ := exec_next_fits h
  refine ⟨rfl, rfl, r, rfl, hr.dout, ?_, hr.rb, ?_⟩
  · intro hne
    cases hs : r.status with
    | ok => exact absurd hs hne
    | error k => exact hr.error k hs ▸ ⟨rfl, rfl, rfl⟩
  · intro hno
    cases hs : r.status with
    | error k => exact hr.error k hs ▸ rfl
    | ok =>
      refine List.eq_nil_of_length_eq_zero ?_
      rw [hr.trace hs, if_neg]
      rintro ⟨hen, hrun⟩
      rcases hno with hno | hno
      · cases hen.symm.trans hno
      · cases hrun.symm.trans hno

end Sys2Proof.Machine
end

section
/-! The field arithmetic engine (`41_field_arithmetic.md` rules R101, R102, R108, R109). Every law of `multiply` comes from one
fact, `XtimeLinear.map_multiply`: the product a · b is built from a by additions and doublings, so a map that respects both
takes a · b to (image of a) · b. -/

namespace Sys2Proof.Machine

/-! ## xtime -/

theorem xtime_eq (a : Byte) : xtime a = if a.getLsbD 7 then (a <<< 1) ^^^ 0x1B else a <<< 1 := by
  have hlow : (a.setWidth 9 <<< 1).extractLsb' 0 8 = a <<< 1 := by
    rw [← BitVec.setWidth_eq_extractLsb' (by decide), BitVec.setWidth_shiftLeft_of_le (by decide),
      BitVec.setWidth_setWidth_of_le a (by decide), BitVec.setWidth_eq]
  simp only [xtime, hlow]

theorem xtime_eq_xor (a : Byte) : xtime a = (a <<< 1) ^^^ (if a.getLsbD 7 then 0x1B else 0x00) := by
  rw [xtime_eq]
  split
  · rfl
  · exact BitVec.xor_zero.symm

theorem xtime_xor (a b : Byte) : xtime (a ^^^ b) = xtime a ^^^ xtime b := by
  have hmask : ∀ p q : Bool, (if p ^^ q then 0x1B else 0x00 : Byte) =
      (if p then 0x1B else 0x00) ^^^ (if q then 0x1B else 0x00) := by decide
  rw [xtime_eq_xor, xtime_eq_xor a, xtime_eq_xor b, BitVec.getLsbD_xor, hmask, BitVec.shiftLeft_xor_distrib]
  ac_rfl

/-- Maps of bytes that respect addition and doubling. -/
structure XtimeLinear (f : Byte → Byte) : Prop where
  map_xor : ∀ a b, f (a ^^^ b) = f a ^^^ f b
  map_xtime : ∀ a, f (xtime a) = xtime (f a)

theorem xtimeLinear_xtime : XtimeLinear xtime where
  map_xor := xtime_xor
  map_xtime _ := rfl

theorem XtimeLinear.map_zero {f : Byte → Byte} (hf : XtimeLinear f) : f 0x00 = 0x00 := by
  have h : f 0x00 = f 0x00 ^^^ f 0x00 := hf.map_xor 0x00 0x00
  rwa [BitVec.xor_self] at h

/-! ## The loop of the product -/

theorem XtimeLinear.map_mulLoop {f : Byte → Byte} (hf : XtimeLinear f) (b : Byte) (n i : Nat) (t p : Byte) :
    f (mulLoop b n i t p) = mulLoop b n i (f t) (f p) := by
  induction n generalizing i t p with
  | zero => rfl
  | succ n ih => simp only [mulLoop, ih, apply_ite f, hf.map_xor, hf.map_xtime]

theorem mulLoop_xor (b : Byte) (n i : Nat) (t u p q : Byte) :
    mulLoop b n i (t ^^^ u) (p ^^^ q) = mulLoop b n i t p ^^^ mulLoop b n i u q := by
  induction n generalizing i t u p q with
  | zero => rfl
  | succ n ih =>
    have hsel : (if b.getLsbD i then (p ^^^ q) ^^^ (t ^^^ u) else p ^^^ q) =
        (if b.getLsbD i then p ^^^ t else p) ^^^ (if b.getLsbD i then q ^^^ u else q) := by
      split
      · ac_rfl
      · rfl
    simp only [mulLoop, xtime_xor, hsel, ih]

/-- The loop, met at step i with t = 2^i · a, adds the doubles that the bits i to i + n - 1 of b select. -/
theorem mulLoop_eq_foldl (a b : Byte) (n i : Nat) (p : Byte) :
    mulLoop b n i (xtime^[i] a) p =
      (List.range' i n).foldl (fun p i => if b.getLsbD i then p ^^^ xtime^[i] a else p) p := by
  induction n generalizing i p with
  | zero => rfl
  | succ n ih => rw [mulLoop, ← Function.iterate_succ_apply' xtime, ih, List.range'_succ, List.foldl_cons]

/-! ## The product -/

theorem XtimeLinear.map_multiply {f : Byte → Byte} (hf : XtimeLinear f) (a b : Byte) :
    f (multiply a b) = multiply (f a) b := by
  rw [multiply, hf.map_mulLoop, hf.map_zero, multiply]

theorem xor_multiply (a b c : Byte) : multiply (a ^^^ b) c = multiply a c ^^^ multiply b c :=
  mulLoop_xor c 8 0 a b 0x00 0x00

theorem xtime_multiply (a b : Byte) : multiply (xtime a) b = xtime (multiply a b) :=
  (xtimeLinear_xtime.map_multiply a b).symm

theorem xtimeLinear_multiply (c : Byte) : XtimeLinear fun a => multiply a c where
  map_xor a b := xor_multiply a b c
  map_xtime a := xtime_multiply a c

theorem multiply_right_comm (a b c : Byte) : multiply (multiply a b) c = multiply (multiply a c) b :=
  (xtimeLinear_multiply c).map_multiply a b

theorem zero_multiply (a : Byte) : multiply 0x00 a = 0x00 := (xtimeLinear_multiply a).map_zero

/-- The doubles of 1 are the eight single bits. -/
theorem one_multiply (a : Byte) : multiply 0x01 a = a := by
  revert a
  decide

theorem multiply_comm (a b : Byte) : multiply a b = multiply b a := by
  calc multiply a b
    _ = multiply (multiply 0x01 a) b := by rw [one_multiply]
    _ = multiply (multiply 0x01 b) a := multiply_right_comm 0x01 a b
    _ = multiply b a := by rw [one_multiply]

theorem multiply_assoc (a b c : Byte) : multiply (multiply a b) c = multiply a (multiply b c) := by
  calc multiply (multiply a b) c
    _ = multiply (multiply b a) c := by rw [multiply_comm a b]
    _ = multiply (multiply b c) a := multiply_right_comm b a c
    _ = multiply a (multiply b c) := multiply_comm _ a

theorem multiply_xor (a b c : Byte) : multiply a (b ^^^ c) = multiply a b ^^^ multiply a c := by
  rw [multiply_comm, xor_multiply, multiply_comm b, multiply_comm c]

theorem multiply_zero (a : Byte) : multiply a 0x00 = 0x00 := by rw [multiply_comm, zero_multiply]

theorem multiply_one (a : Byte) : multiply a 0x01 = a := by rw [multiply_comm, one_multiply]

theorem multiply_two (a : Byte) : multiply a 0x02 = xtime a := by
  calc multiply a 0x02
    _ = multiply (xtime 0x01) a := multiply_comm a 0x02
    _ = xtime a := by rw [xtime_multiply, one_multiply]

theorem multiply_three (a : Byte) : multiply a 0x03 = xtime a ^^^ a := by
  calc multiply a 0x03
    _ = multiply a 0x02 ^^^ multiply a 0x01 := multiply_xor a 0x02 0x01
    _ = xtime a ^^^ a := by rw [multiply_two, multiply_one]

/-- Settles O19, by the laws above; xtime gives a byte by its type. -/
theorem fieldArithmeticLaws : Obligations.FieldArithmeticLaws := by
  unfold Obligations.FieldArithmeticLaws
  intro a b c
  exact ⟨BitVec.xor_comm a b, BitVec.xor_self, (multiply_assoc a b c).symm, multiply_one a, multiply_zero a,
    (xtime a).isLt, multiply_comm a b, multiply_xor a b c⟩

/-- Settles O21: the sum over the selected doubles is the loop from step 0 on. -/
theorem productSumsSelectedDoubles : Obligations.ProductSumsSelectedDoubles := by
  unfold Obligations.ProductSumsSelectedDoubles
  refine ⟨fun a b => ?_, fun a => ?_, by decide⟩
  · rw [List.range_eq_range']
    exact mulLoop_eq_foldl a b 8 0 0x00
  · exact ⟨multiply_zero a, zero_multiply a, multiply_one a, multiply_two a, multiply_three a⟩

/-- 0x8d is the inverse of x: multiplying by it undoes xtime from both sides. -/
theorem xtime_bijective : Function.Bijective xtime := by
  have hx : xtime 0x8d = 0x01 := by decide
  refine Function.bijective_iff_has_inverse.mpr ⟨multiply 0x8d, fun a => ?_, fun a => ?_⟩
  · rw [multiply_comm, xtime_multiply, multiply_comm, ← xtime_multiply, hx, one_multiply]
  · rw [← xtime_multiply, hx, one_multiply]

/-- Settles O20. -/
theorem xtimeShiftsAndReduces : Obligations.XtimeShiftsAndReduces := by
  unfold Obligations.XtimeShiftsAndReduces
  exact ⟨xtime_eq, xtime_bijective, by decide⟩

/-! ## Inverses -/

/-- The inverse of a, read off the S-box: SBOX[a] is an affine image of it (R122), and this is the inverse affine map. -/
def fieldInverse (a : Byte) : Byte :=
  (sbox a).rotateLeft 1 ^^^ (sbox a).rotateLeft 3 ^^^ (sbox a).rotateLeft 6 ^^^ 0x05

/-- The S-box is a table of constants, so this is checked entry by entry. -/
theorem multiply_fieldInverse {a : Byte} (h : a ≠ 0x00) : multiply a (fieldInverse a) = 0x01 := by
  revert a
  decide

theorem eq_of_multiply_eq_one {a b c : Byte} (hb : multiply a b = 0x01) (hc : multiply a c = 0x01) : b = c := by
  calc b
    _ = multiply (multiply a c) b := by rw [hc, one_multiply]
    _ = multiply (multiply a b) c := multiply_right_comm a c b
    _ = c := by rw [hb, one_multiply]

/-- Settles O22: the inverse is `fieldInverse a`, and two inverses of a are equal by the laws. -/
theorem nonzeroBytesHaveOneInverse : Obligations.NonzeroBytesHaveOneInverse := by
  unfold Obligations.NonzeroBytesHaveOneInverse
  constructor
  · intro a ha
    have hinv := multiply_fieldInverse ha
    exact ⟨fieldInverse a, hinv, fun b hb => eq_of_multiply_eq_one hb hinv⟩
  · intro b hb
    rw [zero_multiply] at hb
    exact absurd hb (by decide)

end Sys2Proof.Machine
end

section
/-! The commands of the field arithmetic engine (`41_field_arithmetic.md` rules R104 to R107), and how the words of the formats
B1 and B2 are taken at the port (`30_encoding.md` rule R72). -/

namespace Sys2Proof.Machine

/-! ## Words with reserved bits -/

theorem extractLsb'_immField (w : CommandWord) {start len : Nat} (h : start + len ≤ 24) :
    (immField w).extractLsb' start len = w.extractLsb' start len :=
  BitVec.extractLsb'_extractLsb'_of_le h

theorem b1Words_of_decode {op : Byte} {f : Byte → Instr}
    (h : ∀ w, opField w = op → decode w = decodeB1 f (immField w)) : B1Words op f := by
  intro w hop
  have hw := h w hop
  rw [decodeB1, extractLsb'_immField w (by decide), extractLsb'_immField w (by decide)] at hw
  exact ⟨fun h0 => acceptedAs_of_decode (hw.trans (if_pos h0)), fun h0 => rejected_of_decode (hw.trans (if_neg h0))⟩

theorem b2Words_of_decode {op : Byte} {f : Byte → Byte → Instr}
    (h : ∀ w, opField w = op → decode w = decodeB2 f (immField w)) : B2Words op f := by
  intro w hop
  have hw := h w hop
  rw [decodeB2, extractLsb'_immField w (by decide), extractLsb'_immField w (by decide),
    extractLsb'_immField w (by decide)] at hw
  exact ⟨fun h0 => acceptedAs_of_decode (hw.trans (if_pos h0)), fun h0 => rejected_of_decode (hw.trans (if_neg h0))⟩

/-! ## ADD, XTIME and MUL -/

/-- Settles O34: the opcode selects the decoder of the format, and on an empty payload the command responds at once. -/
theorem fieldCommandsAnswer : Obligations.FieldCommandsAnswer := by
  unfold Obligations.FieldCommandsAnswer
  refine ⟨b2Words_of_decode fun w hop => by simp [decode, hop], b1Words_of_decode fun w hop => by simp [decode, hop],
    b2Words_of_decode fun w hop => by simp [decode, hop], fun s a b hd => ⟨?_, ?_, ?_⟩⟩
  · exact withNoPayload_of_nil hd _
  · exact withNoPayload_of_nil hd _
  · exact withNoPayload_of_nil hd _

/-! ## MADD -/

@[simp] theorem matrixOf_lanesOfMatrix (m : Matrix) : matrixOf (lanesOfMatrix m) = m := by
  simp [matrixOf, lanesOfMatrix, Function.comp_def]

@[simp] theorem length_lanesOfMatrix (m : Matrix) : (lanesOfMatrix m).length = m.length := List.length_map _

/-- MADD on the columns of two matrices of the announced counts runs the matrix adder on them. -/
theorem exec_madd {s : State} {na nb : BitVec 12} {a b : Matrix} (ha : a.length = na.toNat) (hb : b.length = nb.toNat)
    (hd : s.din = lanesOfMatrix a ++ lanesOfMatrix b) :
    exec (.madd na nb) s =
      (madd a b).elim (raise .dimensionMismatch s) fun y => respond 0x00 (lanesOfMatrix y) [] s := by
  have hlen : s.din.length = na.toNat + nb.toNat := by simp [hd, ha, hb]
  have hleft : s.din.take na.toNat = lanesOfMatrix a := by rw [hd, List.take_left' (by simp [ha])]
  have hright : s.din.drop na.toNat = lanesOfMatrix b := by rw [hd, List.drop_left' (by simp [ha])]
  rw [exec, execMadd, withLanes_of_length hlen, hleft, hright, matrixOf_lanesOfMatrix, matrixOf_lanesOfMatrix]
  cases madd a b <;> rfl

/-- Settles O35: op 0x13 has no reserved bit; the column counts are the lengths the matrix adder compares. -/
theorem maddAnswers : Obligations.MaddAnswers := by
  unfold Obligations.MaddAnswers
  constructor
  · intro w hop
    apply acceptedAs_of_decode
    have hdec : decode w = decodeM2 (immField w) := by simp [decode, hop]
    rw [hdec, decodeM2, extractLsb'_immField w (by decide), extractLsb'_immField w (by decide)]
  · intro s na nb a b ha hb hd
    rw [exec_madd ha hb hd]
    constructor
    · rintro rfl
      rw [madd, if_pos (ha.trans hb.symm), Option.elim_some, respond_eq]
    · intro hne
      have hlen : a.length ≠ b.length := fun h => hne (BitVec.eq_of_toNat_eq (ha.symm.trans (h.trans hb)))
      rw [madd, if_neg hlen, Option.elim_none, raise_eq]

end Sys2Proof.Machine
end

section
/-! The substitution tables (`42_substitution_tables.md` rules R122 to R124): their consistency and the commands SBOX and ISBOX.
`fieldInverse` reads the inverse off the S-box by an affine map; the affine form of R122 holds because its map undoes that one. -/

namespace Sys2Proof.Machine

/-! ## The two tables against each other -/

/-- The tables are constants, so this is checked entry by entry. -/
theorem isbox_sbox : Function.LeftInverse isbox sbox := by
  unfold Function.LeftInverse
  decide

/-- On a finite set of bytes a left inverse is a right inverse. -/
theorem sbox_isbox : Function.RightInverse isbox sbox :=
  isbox_sbox.rightInverse_of_card_le le_rfl

/-- Neither a fixed nor an opposite fixed point, entry by entry. -/
theorem sbox_ne (x : Byte) : sbox x ≠ x ∧ sbox x ≠ x ^^^ 0xff := by
  revert x
  decide

/-! ## The affine form of the S-box -/

/-- The affine map of R122. -/
def sboxAffine (b : Byte) : Byte :=
  b ^^^ b.rotateLeft 1 ^^^ b.rotateLeft 2 ^^^ b.rotateLeft 3 ^^^ b.rotateLeft 4 ^^^ 0x63

theorem sboxAffine_inverseAffine (y : Byte) :
    sboxAffine (y.rotateLeft 1 ^^^ y.rotateLeft 3 ^^^ y.rotateLeft 6 ^^^ 0x05) = y := by
  revert y
  decide

theorem sbox_eq_sboxAffine (a : Byte) : sbox a = sboxAffine (fieldInverse a) :=
  (sboxAffine_inverseAffine (sbox a)).symm

/-- `fieldInverse` is the inverse that R122 means, which takes 0 to 0. -/
theorem eq_fieldInverse {a b : Byte} (h : multiply a b = 0x01 ∨ a = 0x00 ∧ b = 0x00) : b = fieldInverse a := by
  rcases h with hab | ⟨rfl, rfl⟩
  · have ha : a ≠ 0x00 := by
      rintro rfl
      rw [zero_multiply] at hab
      exact absurd hab (by decide)
    exact eq_of_multiply_eq_one hab (multiply_fieldInverse ha)
  · decide

/-- Settles O23: the inverse is unique, so b is `fieldInverse a`, and the affine map takes it to SBOX[a]. -/
theorem substitutionTablesAreConsistent : Obligations.SubstitutionTablesAreConsistent := by
  unfold Obligations.SubstitutionTablesAreConsistent
  constructor
  · intro x
    exact ⟨isbox_sbox x, sbox_isbox x, sbox_ne x⟩
  · intro a b h
    rw [eq_fieldInverse h]
    exact sbox_eq_sboxAffine a

/-! ## The commands -/

/-- Settles O36: the opcode selects the decoder of format B1, and the lookup splits the byte into row and column. -/
theorem tableCommandsAnswer : Obligations.TableCommandsAnswer := by
  unfold Obligations.TableCommandsAnswer
  refine ⟨b1Words_of_decode fun w hop => by simp [decode, hop], b1Words_of_decode fun w hop => by simp [decode, hop],
    fun s a hd => ⟨withNoPayload_of_nil hd _, withNoPayload_of_nil hd _, rfl, rfl⟩⟩

end Sys2Proof.Machine
end

section
/-! The state transforms (`43_state_transforms.md` rules R131 to R146): what each gives element by element, and the
seven commands. The column mixes come down to the product of a row of the matrix with a column of the State,
`rowTimes`. -/

namespace Sys2Proof.Machine

/-! ## SubBytes and AddRoundKey -/

@[simp] theorem get_subBytes (s : Block) (r c : Fin 4) : (subBytes s).get r c = sbox (s.get r c) := Block.get_map ..

@[simp] theorem get_invSubBytes (s : Block) (r c : Fin 4) : (invSubBytes s).get r c = isbox (s.get r c) :=
  Block.get_map ..

@[simp] theorem get_addRoundKey (s k : Block) (r c : Fin 4) : (addRoundKey s k).get r c = s.get r c ^^^ k.get r c :=
  Block.get_ofFn ..

theorem invSubBytes_subBytes (s : Block) : invSubBytes (subBytes s) = s := by
  refine Block.ext_get fun r c => ?_
  rw [get_invSubBytes, get_subBytes, isbox_sbox]

theorem subBytes_invSubBytes (s : Block) : subBytes (invSubBytes s) = s := by
  refine Block.ext_get fun r c => ?_
  rw [get_subBytes, get_invSubBytes, sbox_isbox]

theorem addRoundKey_addRoundKey (s k : Block) : addRoundKey (addRoundKey s k) k = s := by
  refine Block.ext_get fun r c => ?_
  rw [get_addRoundKey, get_addRoundKey, BitVec.xor_assoc, BitVec.xor_self, BitVec.xor_zero]

theorem matrixOf_lanes (b : Block) : matrixOf b.lanes = [b.c0, b.c1, b.c2, b.c3] := by
  simp [matrixOf, Block.lanes]

/-- R139: the matrix adder on two blocks, column by column. -/
theorem madd_lanes (s k : Block) :
    madd (matrixOf s.lanes) (matrixOf k.lanes) = some (matrixOf (addRoundKey s k).lanes) := by
  rw [matrixOf_lanes, matrixOf_lanes, matrixOf_lanes]
  rfl

/-- Settles O24: byte n of a block is one of its matrix elements. -/
theorem byteLaneTransforms : Obligations.ByteLaneTransforms := by
  unfold Obligations.ByteLaneTransforms
  exact fun s k n => ⟨get_subBytes .., get_addRoundKey .., madd_lanes s k, addRoundKey_addRoundKey s k⟩

/-! ## ShiftRows -/

@[simp] theorem get_shiftRows (s : Block) (r c : Fin 4) : (shiftRows s).get r c = s.get r (c + r) := Block.get_ofFn ..

@[simp] theorem get_invShiftRows (s : Block) (r c : Fin 4) : (invShiftRows s).get r c = s.get r (c - r) :=
  Block.get_ofFn ..

theorem invShiftRows_shiftRows (s : Block) : invShiftRows (shiftRows s) = s := by
  refine Block.ext_get fun r c => ?_
  rw [get_invShiftRows, get_shiftRows, sub_add_cancel]

theorem shiftRows_invShiftRows (s : Block) : shiftRows (invShiftRows s) = s := by
  refine Block.ext_get fun r c => ?_
  rw [get_shiftRows, get_invShiftRows, add_sub_cancel_right]

/-- The byte order of R133 in one formula: byte n comes from byte 5n mod 16, because a step of one column is four bytes
on and row r moves r columns, and n + 4 (n mod 4) is 5n mod 16. -/
theorem byte_shiftRows (s : Block) (n : Fin 16) : (shiftRows s).byte n = s.byte (5 * n) := by
  have hindex : ∀ n : Fin 16, (5 * n).val % 4 = n.val % 4 ∧ (5 * n).val / 4 = (n.val / 4 + n.val % 4) % 4 := by decide
  obtain ⟨hrow, hcol⟩ := hindex n
  simp only [Block.byte, get_shiftRows, Fin.add_def, hrow, hcol]

/-- Byte n is byte 5 · (13n) of the State before, since 5 · 13 is 1 mod 16. -/
theorem byte_invShiftRows (s : Block) (n : Fin 16) : (invShiftRows s).byte n = s.byte (13 * n) := by
  have hindex : ∀ n : Fin 16, 5 * (13 * n) = n := by decide
  rw [← congrArg (Block.byte · (13 * n)) (shiftRows_invShiftRows s), byte_shiftRows, hindex]

/-- Settles O25: the printed orders are the multiples of 5 and of 13 mod 16. -/
theorem shiftRowsRotatesTheRows : Obligations.ShiftRowsRotatesTheRows := by
  unfold Obligations.ShiftRowsRotatesTheRows
  refine fun s => ⟨fun r c => ⟨get_shiftRows s r c, get_invShiftRows s r c⟩, ?_, ?_⟩
  · have horder : [0, 5, 10, 15, 4, 9, 14, 3, 8, 13, 2, 7, 12, 1, 6, 11] = (List.finRange 16).map (5 * ·) := by decide
    rw [horder, List.map_map]
    exact List.map_congr_left fun n _ => byte_shiftRows s n
  · have horder : [0, 13, 10, 7, 4, 1, 14, 11, 8, 5, 2, 15, 12, 9, 6, 3] = (List.finRange 16).map (13 * ·) := by decide
    rw [horder, List.map_map]
    exact List.map_congr_left fun n _ => byte_invShiftRows s n

/-! ## A row of a matrix times a column of the State -/

theorem two_multiply (a : Byte) : multiply 0x02 a = xtime a := by rw [multiply_comm, multiply_two]

theorem three_multiply (a : Byte) : multiply 0x03 a = xtime a ^^^ a := by rw [multiply_comm, multiply_three]

/-- The sum of R136: the product of a matrix row and a column. -/
def rowTimes (m v : Fin 4 → Byte) : Byte :=
  multiply (m 0) (v 0) ^^^ multiply (m 1) (v 1) ^^^ multiply (m 2) (v 2) ^^^ multiply (m 3) (v 3)

theorem get_matrixTimes (m : Vector (Vector Byte 4) 4) (s : Block) (r c : Fin 4) :
    (matrixTimes m s).get r c = rowTimes (fun k => m[r][k]) (fun k => s.get k c) :=
  Block.get_ofFn ..

theorem rowTimes_xor (m v w : Fin 4 → Byte) : rowTimes m (fun k => v k ^^^ w k) = rowTimes m v ^^^ rowTimes m w := by
  simp only [rowTimes, multiply_xor]
  ac_rfl

theorem rowTimes_const (m : Fin 4 → Byte) (a : Byte) :
    rowTimes m (fun _ => a) = multiply (m 0 ^^^ m 1 ^^^ m 2 ^^^ m 3) a := by
  simp only [rowTimes, xor_multiply]

/-- The matrix product is associative: a row times (a matrix times a column) is (the row times the matrix) times the
column. -/
theorem rowTimes_rowTimes (m : Fin 4 → Byte) (n : Fin 4 → Fin 4 → Byte) (v : Fin 4 → Byte) :
    rowTimes m (fun k => rowTimes (n k) v) = rowTimes (fun j => rowTimes m fun k => n k j) v := by
  simp only [rowTimes, multiply_xor, xor_multiply, multiply_assoc]
  ac_rfl

/-- Row r of the unit matrix picks element r. -/
theorem rowTimes_unit (r : Fin 4) (v : Fin 4 → Byte) : rowTimes (fun k => if r = k then 0x01 else 0x00) v = v r := by
  match r with
  | 0 | 1 | 2 | 3 =>
    simp only [rowTimes, reduceIte, Fin.reduceEq, one_multiply, zero_multiply]
    simp

/-! ## The column mixes -/

theorem matrixTimes_addRoundKey (m : Vector (Vector Byte 4) 4) (s k : Block) :
    matrixTimes m (addRoundKey s k) = addRoundKey (matrixTimes m s) (matrixTimes m k) := by
  refine Block.ext_get fun r c => ?_
  simp only [get_addRoundKey, get_matrixTimes, rowTimes_xor]

/-- Where the product of two matrices is the unit matrix, the first undoes the second. -/
theorem matrixTimes_matrixTimes {m n : Vector (Vector Byte 4) 4}
    (hmn : ∀ r c : Fin 4, rowTimes (fun k => m[r][k]) (fun k => n[k][c]) = if r = c then 0x01 else 0x00) (s : Block) :
    matrixTimes m (matrixTimes n s) = s := by
  refine Block.ext_get fun r c => ?_
  simp only [get_matrixTimes, rowTimes_rowTimes, hmn, rowTimes_unit]

theorem invMixColumns_mixColumns (s : Block) : invMixColumns (mixColumns s) = s :=
  matrixTimes_matrixTimes (by decide) s

theorem mixColumns_invMixColumns (s : Block) : mixColumns (invMixColumns s) = s :=
  matrixTimes_matrixTimes (by decide) s

/-- Every row of MIX sums to 1, so a column of four equal bytes maps to itself (R136). -/
theorem get_mixColumns_of_const {s : Block} {c : Fin 4} {a : Byte} (h : ∀ r, s.get r c = a) (r : Fin 4) :
    (mixColumns s).get r c = a := by
  have hsum : ∀ r : Fin 4, mixMatrix[r][0] ^^^ mixMatrix[r][1] ^^^ mixMatrix[r][2] ^^^ mixMatrix[r][3] = 0x01 := by
    decide
  calc (mixColumns s).get r c
    _ = rowTimes (fun k => mixMatrix[r][k]) (fun _ => a) := by simp only [mixColumns, get_matrixTimes, h]
    _ = multiply 0x01 a := (rowTimes_const ..).trans (congrArg (multiply · a) (hsum r))
    _ = a := one_multiply a

/-- Settles O26: multiplying by the entries 1, 2 and 3 of MIX is the identity, xtime, and xtime plus the identity. -/
theorem mixColumnsMultipliesByTheMatrix : Obligations.MixColumnsMultipliesByTheMatrix := by
  unfold Obligations.MixColumnsMultipliesByTheMatrix
  refine fun s c => ⟨?_, ?_, ?_, ?_, get_mixColumns_of_const⟩
  all_goals
    simp only [mixColumns, get_matrixTimes, rowTimes, mixMatrix, Fin.getElem_fin, Fin.isValue, Fin.coe_ofNat_eq_mod,
      Nat.reduceMod, Vector.getElem_mk, List.getElem_toArray, List.getElem_cons_zero, List.getElem_cons_succ,
      one_multiply, two_multiply, three_multiply]

/-! ## The transforms together -/

/-- Settles O27. -/
theorem transformsAreInvertible : Obligations.TransformsAreInvertible := by
  unfold Obligations.TransformsAreInvertible
  exact fun s => ⟨invSubBytes_subBytes s, subBytes_invSubBytes s, invShiftRows_shiftRows s, shiftRows_invShiftRows s,
    invMixColumns_mixColumns s, mixColumns_invMixColumns s⟩

theorem shiftRows_subBytes (s : Block) : shiftRows (subBytes s) = subBytes (shiftRows s) :=
  Block.ext_get fun r c => by simp only [get_shiftRows, get_subBytes]

theorem invShiftRows_invSubBytes (s : Block) : invShiftRows (invSubBytes s) = invSubBytes (invShiftRows s) :=
  Block.ext_get fun r c => by simp only [get_invShiftRows, get_invSubBytes]

/-- Settles O28: ShiftRows moves bytes and SubBytes replaces them; a matrix product is linear. -/
theorem transformsCommute : Obligations.TransformsCommute := by
  unfold Obligations.TransformsCommute
  exact fun s k => ⟨shiftRows_subBytes s, invShiftRows_invSubBytes s, matrixTimes_addRoundKey mixMatrix s k,
    matrixTimes_addRoundKey invMixMatrix s k⟩

/-! ## The commands -/

/-- How the words of the formats Z, W, S, SI and SK are taken at the port (R72). -/
theorem noImmWords_of_decode {op : Byte} {i : Instr} (h : ∀ w, opField w = op → decode w = decodeNoImm i (immField w)) :
    NoImmWords op i := fun w hop =>
  ⟨fun h0 => acceptedAs_of_decode ((h w hop).trans (if_pos h0)),
    fun h0 => rejected_of_decode ((h w hop).trans (if_neg h0))⟩

/-- A command that answers with the image of its block writes no register. -/
theorem withBlock_respond {s : State} {x : Block} (hd : s.din = x.lanes) (f : Block → Block) :
    withBlock s (fun x => respond 0x00 (f x).lanes [] s) = .next (s.finish (okResponse 0x00 (f x).lanes [])) := by
  rw [withBlock_of_lanes hd, respond_eq]

/-- Settles O37: the opcode selects the decoder without operands, and on a payload of its length the command responds at
once. -/
theorem transformCommandsAnswer : Obligations.TransformCommandsAnswer := by
  unfold Obligations.TransformCommandsAnswer
  refine ⟨?words, fun s x hd => ?oneBlock, fun s x k hd => ?twoBlocks⟩
  case words =>
    refine ⟨?_, ?_, ?_, ?_, ?_, ?_, ?_⟩
    all_goals exact noImmWords_of_decode fun w hop => by simp [decode, hop]
  case oneBlock =>
    exact ⟨withBlock_respond hd subBytes, withBlock_respond hd invSubBytes, withBlock_respond hd shiftRows,
      withBlock_respond hd invShiftRows, withBlock_respond hd mixColumns, withBlock_respond hd invMixColumns⟩
  case twoBlocks => exact withTwoBlocks_of_lanes hd fun x k => respond 0x00 (addRoundKey x k).lanes [] s

end Sys2Proof.Machine
end

section
/-! The key schedule (`44_key_schedule.md` rules R150 to R159): the recurrence of KeyExpansion and the commands LDKEY, RDRK,
ROTW and SUBW. The loop of R153 forms each column from columns already formed and never touches one again, so the equation
by which it forms a column holds of the finished schedule. -/

namespace Sys2Proof.Machine

/-! ## The round constants -/

/-- Settles O30: RCON is a constant of ten columns, so this is checked column by column. -/
theorem roundConstantsArePowersOfX : Obligations.RoundConstantsArePowersOfX := by
  unfold Obligations.RoundConstantsArePowersOfX
  decide

/-! ## KeyExpansion -/

/-- The loop, met at column i, leaves the columns before it as they are. -/
theorem ksCol_expandLoop_of_lt {i j : Nat} (h : j < i) (n : Nat) (ks : Schedule) (t : Col) :
    ksCol (expandLoop n i ks t).1 j = ksCol ks j := by
  induction n generalizing i ks t with
  | zero => rfl
  | succ n ih =>
    rw [expandLoop, ih (Nat.lt_succ_of_lt h)]
    exact ksCol_set_other ks (Nat.ne_of_gt h) _

/-- Each column that the loop forms satisfies R153 in the schedule that the loop ends with. -/
theorem ksCol_expandLoop {n i j : Nat} (hi : 4 ≤ i) (hij : i ≤ j) (hjn : j < i + n) (hj : j < 44) (ks : Schedule)
    (t : Col) :
    ksCol (expandLoop n i ks t).1 j =
      (ksCol (expandLoop n i ks t).1 (j - 4)).xor (scheduleTmp j (ksCol (expandLoop n i ks t).1 (j - 1))) := by
  induction n generalizing i ks t with
  | zero => omega
  | succ n ih =>
    rcases Nat.eq_or_lt_of_le hij with rfl | hlt
    · have hformed : ksCol (expandLoop (n + 1) i ks t).1 i =
          (ksCol ks (i - 4)).xor (scheduleTmp i (ksCol ks (i - 1))) := by
        rw [expandLoop, ksCol_expandLoop_of_lt (Nat.lt_succ_self i)]
        exact ksCol_set_self ks hj _
      rw [hformed, ksCol_expandLoop_of_lt (by omega), ksCol_expandLoop_of_lt (by omega)]
    · exact ih (by omega) hlt (by omega) _ _

theorem ksCol_scheduleStart (key : Block) (c : Fin 4) : ksCol (scheduleStart key) c = key.col c := by
  match c with
  | 0 => rfl
  | 1 => rfl
  | 2 => rfl
  | 3 => rfl

theorem ksCol_keyExpansion_of_key (key : Block) (c : Fin 4) : ksCol (keyExpansion key) c = key.col c := by
  rw [keyExpansion, keyExpandRegs, ksCol_expandLoop_of_lt c.isLt, ksCol_scheduleStart]

/-- R154: round key 0 is the key. -/
theorem roundKey_keyExpansion_zero (key : Block) : roundKey (keyExpansion key) 0 = key :=
  Block.ext (ksCol_keyExpansion_of_key key 0) (ksCol_keyExpansion_of_key key 1) (ksCol_keyExpansion_of_key key 2)
    (ksCol_keyExpansion_of_key key 3)

theorem ksCol_keyExpansion (key : Block) {i : Nat} (h4 : 4 ≤ i) (h44 : i < 44) :
    ksCol (keyExpansion key) i =
      (ksCol (keyExpansion key) (i - 4)).xor (scheduleTmp i (ksCol (keyExpansion key) (i - 1))) :=
  ksCol_expandLoop le_rfl h4 h44 h44 _ _

/-- Settles O29: the columns before the loop are the key's, and `scheduleTmp` is the case distinction on i. -/
theorem keyScheduleRecurrence : Obligations.KeyScheduleRecurrence := by
  unfold Obligations.KeyScheduleRecurrence
  exact fun key => ⟨ksCol_keyExpansion_of_key key, roundKey_keyExpansion_zero key, fun _ => ksCol_keyExpansion key⟩

/-! ## Commands without an immediate -/

/-- Settles O39: the schedule that LDKEY writes does not depend on TMPW (`keyExpandRegs_schedule`), which the end of the
command frees (`finish_work`). -/
theorem ldkeyLoadsKeyAndSchedule : Obligations.LdkeyLoadsKeyAndSchedule := by
  unfold Obligations.LdkeyLoadsKeyAndSchedule
  refine ⟨noImmWords_of_decode fun w hop => by simp [decode, hop], fun s x hd => ?_⟩
  rw [exec, execLdkey, withBlock_of_lanes hd, respond_eq, keyExpandRegs_schedule]
  exact congrArg Host.Outcome.next
    (finish_work { s with core := s.core.loadKey x (keyExpansion x) } _ (okResponse 0x00 [] []))

theorem withCol_of_toLane {s : State} {w : Col} (h : s.din = [w.toLane]) (go : Col → Answer) : withCol s go = go w := by
  rw [withCol_of_lane h, Col.ofLane_toLane]

/-- Settles O38: on a payload of one column ROTW and SUBW respond at once, with `rotWord` and `subWord` of it. -/
theorem wordCommandsAnswer : Obligations.WordCommandsAnswer := by
  unfold Obligations.WordCommandsAnswer
  refine ⟨noImmWords_of_decode fun w hop => by simp [decode, hop], noImmWords_of_decode fun w hop => by simp [decode, hop],
    fun s w hd => ⟨?_, ?_⟩⟩
  · exact withCol_of_toLane hd fun w => respond 0x00 [(rotWord w).toLane] [] s
  · exact withCol_of_toLane hd fun w => respond 0x00 [(subWord w).toLane] [] s

/-! ## RDRK -/

theorem decode_rdrk {w : CommandWord} (hop : opField w = 0x41) :
    decode w =
      if w.extractLsb' 4 20 = 0 then
        if (w.extractLsb' 0 4).toNat ≤ 10 then .ok (.rdrk (w.extractLsb' 0 4)) else .illegal .roundIndex
      else .illegal .reservedBits := by
  have hdec : decode w = decodeR (immField w) := by simp [decode, hop]
  rw [hdec, decodeR, extractLsb'_immField w (by decide), extractLsb'_immField w (by decide)]

theorem rejected_rdrk {w : CommandWord} (hop : opField w = 0x41)
    (h : w.extractLsb' 4 20 ≠ 0 ∨ 10 < (w.extractLsb' 0 4).toNat) : Rejected w := by
  by_cases hres : w.extractLsb' 4 20 = 0
  · have hr : ¬ (w.extractLsb' 0 4).toNat ≤ 10 := Nat.not_le.mpr (h.resolve_left (not_not.mpr hres))
    exact rejected_of_decode ((decode_rdrk hop).trans ((if_pos hres).trans (if_neg hr)))
  · exact rejected_of_decode ((decode_rdrk hop).trans (if_neg hres))

/-- RDRK with a round index in range and no payload is the key check and the read of one round key. -/
theorem exec_rdrk {s : State} {r : BitVec 4} (hd : s.din = []) (hr : r.toNat ≤ 10) :
    exec (.rdrk r) s = withSchedule s fun ks => respond 0x00 (roundKey ks r.toNat).lanes [] s := by
  rw [exec, execRdrk, withNoPayload_of_nil hd, if_pos hr]

/-- Settles O40: the words by the decoder of format R, the answers by the key check; RDRK 0 is
`roundKey_keyExpansion_zero`. -/
theorem rdrkReadsARoundKey : Obligations.RdrkReadsARoundKey := by
  unfold Obligations.RdrkReadsARoundKey
  refine ⟨fun w hop => ⟨fun hres hr => ?_, rejected_rdrk hop⟩, fun s r hd hr => ⟨fun hkey => ?_, fun k hkey => ?_⟩⟩
  · exact acceptedAs_of_decode ((decode_rdrk hop).trans ((if_pos hres).trans (if_pos hr)))
  · rw [exec_rdrk hd hr, withSchedule_of_none hkey, raise_eq]
  · have hread : exec (.rdrk r) s = .next (s.finish (okResponse 0x00 (roundKey k.ks r.toNat).lanes [])) := by
      rw [exec_rdrk hd hr, withSchedule_of_some hkey, respond_eq]
    refine ⟨hread, ?_⟩
    rintro hks rfl
    rw [hread, hks, show (0 : BitVec 4).toNat = 0 from rfl, roundKey_keyExpansion_zero]

end Sys2Proof.Machine
end

section
/-! The cipher pipelines (`45_cipher_pipelines.md` rules R173 to R177). The inverse cipher takes the steps of the forward
cipher back one by one: the State between two of its rounds is the State half way through a round of the forward cipher,
counted from the other end. -/

namespace Sys2Proof.Machine

/-! ## The ciphers undo one another -/

/-- The byte steps of a round of the forward cipher, undone by those of the inverse cipher. -/
theorem invSubBytes_invShiftRows_shiftRows_subBytes (s : Block) :
    invSubBytes (invShiftRows (shiftRows (subBytes s))) = s := by
  rw [invShiftRows_shiftRows, invSubBytes_subBytes]

/-- Deciphering, after n rounds, is at the State that the encipherment had half way through round m + 1 = 10 - n. -/
theorem invCipherState_cipher (x : Block) (ks : Schedule) {n m : Nat} (h : n + m = 9) :
    invCipherState (cipher x ks) ks n = shiftRows (subBytes (cipherState x ks m)) := by
  induction n generalizing m with
  | zero =>
    obtain rfl : m = 9 := by omega
    rw [invCipherState, cipher, addRoundKey_addRoundKey]
  | succ n ih =>
    have hkey : 10 - (n + 1) = m + 1 := by omega
    rw [invCipherState, invCipherRound, ih (m := m + 1) (by omega), invSubBytes_invShiftRows_shiftRows_subBytes, hkey,
      cipherState, cipherRound, addRoundKey_addRoundKey, invMixColumns_mixColumns]

theorem invCipher_cipher (x : Block) (ks : Schedule) : invCipher (cipher x ks) ks = x := by
  rw [invCipher, invCipherState_cipher x ks (Nat.add_zero 9), invSubBytes_invShiftRows_shiftRows_subBytes, cipherState,
    addRoundKey_addRoundKey]

theorem finite_block : Finite Block :=
  Finite.of_injective Block.toBits (Function.LeftInverse.injective Block.ofBits_toBits)

/-- On the finite set of blocks a left inverse is a right inverse. -/
theorem cipher_invCipher (x : Block) (ks : Schedule) : cipher (invCipher x ks) ks = x := by
  have hleft : Function.LeftInverse (invCipher · ks) (cipher · ks) := fun y => invCipher_cipher y ks
  have hfinite := finite_block
  exact hleft.rightInverse_of_surjective (Finite.surjective_of_injective hleft.injective) x

/-- Settles O32: deciphering takes the encipherment back round by round, and blocks are finitely many. -/
theorem ciphersAreInverse : Obligations.CiphersAreInverse := by
  unfold Obligations.CiphersAreInverse
  exact fun x ks => ⟨invCipher_cipher x ks, cipher_invCipher x ks⟩

/-! ## The known-answer vector -/

/-- Settles O33: the forward direction is one run on constants, and the inverse cipher takes it back. -/
theorem knownAnswerVector : Obligations.KnownAnswerVector := by
  unfold Obligations.KnownAnswerVector
  have hforward : cipher (Block.ofBits 0x00112233445566778899aabbccddeeff)
      (keyExpansion (Block.ofBits 0x000102030405060708090a0b0c0d0e0f)) =
        Block.ofBits 0x69c4e0d86a7b0430d8cdb78070b4c55a := by
    set_option maxRecDepth 100000 in decide
  refine ⟨hforward, ?_⟩
  rw [← hforward, invCipher_cipher]

/-! ## CIPH and ICIPH -/

/-- The end of CIPH and of ICIPH: the response holds the pipeline's result and trace table, and the working registers that
the run wrote are freed (`finish_work`). -/
theorem respond_runPipeline (dir : Direction) (ks : Schedule) (x : Block) (s : State) :
    respond 0x00 (runPipeline dir ks s.core.traceEn x s.work).1.state.lanes
        (runPipeline dir ks s.core.traceEn x s.work).2
        { s with work := (runPipeline dir ks s.core.traceEn x s.work).1 } =
      .next (s.finish (okResponse 0x00 (pipelineResult dir x ks).lanes
        (if s.core.traceEn then pipelineTrace dir x ks else []))) := by
  rw [runPipeline_eq, respond_eq, finish_work, Working.afterRun]

/-- Settles O41: on one block either the key check raises or the pipeline runs on the loaded schedule. -/
theorem ciphAndIciphAnswer : Obligations.CiphAndIciphAnswer := by
  unfold Obligations.CiphAndIciphAnswer
  refine ⟨noImmWords_of_decode fun w hop => by simp [decode, hop], noImmWords_of_decode fun w hop => by simp [decode, hop],
    fun s x hd => ⟨fun hkey => ⟨?_, ?_⟩, fun k hkey => ⟨?_, ?_⟩⟩⟩
  · rw [exec, execCiph, withBlock_of_lanes hd, withSchedule_of_none hkey, raise_eq]
  · rw [exec, execIciph, withBlock_of_lanes hd, withSchedule_of_none hkey, raise_eq]
  · rw [exec, execCiph, withBlock_of_lanes hd, withSchedule_of_some hkey]
    exact respond_runPipeline .forward k.ks x s
  · rw [exec, execIciph, withBlock_of_lanes hd, withSchedule_of_some hkey]
    exact respond_runPipeline .inverse k.ks x s

end Sys2Proof.Machine
end

section
/-! A payload and its blocks (`20_memory.md` rule R56, `46_modes.md` rule R193): a payload is the lanes of its blocks and
at most three lanes more, and a block's bytes stand in its lanes. -/

namespace Sys2Proof

/-! ## Splitting a payload -/

theorem exists_lanesOf_blocksOf_append (ls : List Lane) :
    ∃ rest, rest.length < 4 ∧ ls = lanesOf (blocksOf ls) ++ rest := by
  induction ls using blocksOf.induct with
  | case1 l0 l1 l2 l3 ls ih =>
    obtain ⟨rest, hlt, hls⟩ := ih
    exact ⟨rest, hlt, by simp [← hls]⟩
  | case2 ls hshort =>
    match ls, hshort with
    | [], _ | [_], _ | [_, _], _ | [_, _, _], _ => exact ⟨_, by simp, rfl⟩
    | l0 :: l1 :: l2 :: l3 :: rest, hshort => exact (hshort l0 l1 l2 l3 rest rfl).elim

theorem length_blocksOf_eq_div (ls : List Lane) : (blocksOf ls).length = ls.length / 4 := by
  obtain ⟨rest, hlt, hls⟩ := exists_lanesOf_blocksOf_append ls
  have hlen : ls.length = 4 * (blocksOf ls).length + rest.length := by
    rw [← length_lanesOf, ← List.length_append, ← hls]
  omega

/-- Split and put together again, a payload of whole blocks is itself. -/
theorem lanesOf_blocksOf {ls : List Lane} (h : ls.length % 4 = 0) : lanesOf (blocksOf ls) = ls := by
  obtain ⟨bs, -, rfl⟩ := exists_lanesOf (n := ls.length / 4) (ls := ls) (by omega)
  rw [blocksOf_lanesOf]

theorem blocksOf_lanes (b : Block) : blocksOf b.lanes = [b] := blocksOf_lanesOf [b]

end Sys2Proof

namespace Sys2Proof.Machine

/-! ## The place of a block -/

theorem getElem?_lanesOf {bs : List Block} {j : Nat} {b : Block} (h : bs[j]? = some b) (c : Fin 4) :
    (lanesOf bs)[4 * j + c.val]? = some (b.col c).toLane := by
  induction bs generalizing j with
  | nil => cases h
  | cons a bs ih =>
    rw [lanesOf_cons]
    cases j with
    | zero =>
      obtain rfl : a = b := Option.some.inj h
      rw [List.getElem?_append_left (by simp)]
      match c with
      | 0 | 1 | 2 | 3 => rfl
    | succ j =>
      have hindex : 4 * (j + 1) + c.val - a.lanes.length = 4 * j + c.val := by
        rw [Block.length_lanes]
        omega
      rw [List.getElem?_append_right (by rw [Block.length_lanes]; omega), hindex]
      exact ih h

/-- A block lies in place j when the lanes from 4j on are its columns. -/
theorem blockAt_of_lanes {ls : List Lane} {j : Nat} {b : Block}
    (h : ∀ c : Fin 4, ls[4 * j + c.val]? = some (b.col c).toLane) : BlockAt ls j b := by
  intro k
  refine ⟨_, h ⟨k.val / 4, by omega⟩, ?_⟩
  rw [Block.byte, Block.get, ← Col.row_ofLane _ ⟨k.val % 4, Nat.mod_lt _ (by decide)⟩, Col.ofLane_toLane]

theorem blockAt_lanesOf {bs : List Block} {j : Nat} {b : Block} (h : bs[j]? = some b) : BlockAt (lanesOf bs) j b :=
  blockAt_of_lanes (getElem?_lanesOf h)

theorem BlockAt.append {ls : List Lane} {j : Nat} {b : Block} (h : BlockAt ls j b) (rest : List Lane) :
    BlockAt (ls ++ rest) j b := by
  intro k
  obtain ⟨l, hl, hbyte⟩ := h k
  obtain ⟨hlt, -⟩ := List.getElem?_eq_some_iff.mp hl
  exact ⟨l, (List.getElem?_append_left hlt).trans hl, hbyte⟩

theorem blockAt_of_blocksOf {ls : List Lane} {j : Nat} {b : Block} (h : (blocksOf ls)[j]? = some b) :
    BlockAt ls j b := by
  obtain ⟨rest, -, hls⟩ := exists_lanesOf_blocksOf_append ls
  rw [hls]
  exact (blockAt_lanesOf h).append rest

end Sys2Proof.Machine
end

section
/-! What the mode sequencers compute (`46_modes.md` rules R194, R197 to R199; their records `47_trace.md` rule R226): on
the blocks of a payload they are the functions of the specification, and each of these functions has its inverse. -/

namespace Sys2Proof.Machine

/-! ## Counter blocks -/

theorem counterBlock_zero (iv : Block) : counterBlock iv 0 = iv := by
  rw [counterBlock, Nat.add_zero, Nat.mod_eq_of_lt iv.int_lt, Block.blk_int]

/-- `sint` of an index with bit 23 set. -/
theorem sint24_neg {idx : BitVec 24} (h : idx.getLsbD 23 = true) : sint24 idx < 0 :=
  BitVec.toInt_neg_of_msb_true ((BitVec.msb_eq_getLsbD_last idx).trans h)

theorem sint24_eq_toNat {idx : BitVec 24} (h : idx.getLsbD 23 = false) : sint24 idx = idx.toNat :=
  BitVec.toInt_eq_toNat_of_msb ((BitVec.msb_eq_getLsbD_last idx).trans h)

/-! ## ECB -/

/-- The ECB function of a direction (R197, R198). -/
def ecbResult : Direction → List Block → Schedule → List Block
  | .forward => ecbEncrypt
  | .inverse => ecbDecrypt

/-- The records of the ECB function of a direction (R226). -/
def ecbTrace : Direction → List Block → Schedule → List TraceRecord
  | .forward => ecbEncryptTrace
  | .inverse => ecbDecryptTrace

theorem ecbResult_eq_map (dir : Direction) (bs : List Block) (ks : Schedule) :
    ecbResult dir bs ks = bs.map fun b => pipelineResult dir b ks := by
  cases dir <;> rfl

theorem ecbTrace_eq_flatMap (dir : Direction) (bs : List Block) (ks : Schedule) :
    ecbTrace dir bs ks = bs.flatMap fun b => pipelineTrace dir b ks := by
  cases dir <;> rfl

theorem ecbResult_singleton (dir : Direction) (b : Block) (ks : Schedule) :
    ecbResult dir [b] ks = [pipelineResult dir b ks] := ecbResult_eq_map dir [b] ks

theorem ecbTrace_singleton (dir : Direction) (b : Block) (ks : Schedule) :
    ecbTrace dir [b] ks = pipelineTrace dir b ks := by
  rw [ecbTrace_eq_flatMap, List.flatMap_singleton]

theorem length_ecbResult (dir : Direction) (bs : List Block) (ks : Schedule) :
    (ecbResult dir bs ks).length = bs.length := by
  rw [ecbResult_eq_map, List.length_map]

/-- R206 (c): a block of the output is the pipeline's result on the block in the same place. -/
theorem getElem?_ecbResult (dir : Direction) (bs : List Block) (ks : Schedule) (j : Nat) :
    (ecbResult dir bs ks)[j]? = bs[j]?.map fun b => pipelineResult dir b ks := by
  rw [ecbResult_eq_map, List.getElem?_map]

theorem ecbResult_inverse_forward (bs : List Block) (ks : Schedule) :
    ecbResult .inverse (ecbResult .forward bs ks) ks = bs := by
  rw [ecbResult_eq_map, ecbResult_eq_map, List.map_map]
  exact List.map_id'' (fun b => invCipher_cipher b ks) bs

theorem sequenceBlocks_ecbStep (dir : Direction) (ks : Schedule) (en : Bool) (bs : List Block) (w : Working) :
    (sequenceBlocks (ecbStep dir ks en) bs w).2 = (ecbResult dir bs ks, if en then ecbTrace dir bs ks else []) := by
  rw [ecbResult_eq_map, ecbTrace_eq_flatMap]
  induction bs generalizing w with
  | nil => simp [sequenceBlocks]
  | cons b bs ih =>
    simp only [sequenceBlocks, ih, ecbStep, runPipeline_eq, Working.afterRun]
    cases en <;> rfl

/-! ## CTR -/

/-- The records of a CTR transform of `n` blocks from index `j` on (R226). -/
def ctrTraceFrom (iv : Block) (ks : Schedule) (j n : Nat) : List TraceRecord :=
  (List.range' j n).flatMap fun i => forwardTrace (counterBlock iv i) ks

theorem ctrTraceFrom_zero (iv : Block) (ks : Schedule) (n : Nat) : ctrTraceFrom iv ks 0 n = ctrTrace n iv ks := by
  rw [ctrTraceFrom, ctrTrace, List.range_eq_range']

theorem ctrTraceFrom_succ (iv : Block) (ks : Schedule) (j n : Nat) :
    ctrTraceFrom iv ks j (n + 1) = forwardTrace (counterBlock iv j) ks ++ ctrTraceFrom iv ks (j + 1) n := by
  rw [ctrTraceFrom, List.range'_succ, List.flatMap_cons, ctrTraceFrom]

theorem length_ctrCryptFrom (iv : Block) (ks : Schedule) (j : Nat) (bs : List Block) :
    (ctrCryptFrom iv ks j bs).length = bs.length := by
  induction bs generalizing j with
  | nil => rfl
  | cons b bs ih => simp [ctrCryptFrom, ih]

theorem length_ctrCrypt (bs : List Block) (iv : Block) (ks : Schedule) : (ctrCrypt bs iv ks).length = bs.length :=
  length_ctrCryptFrom iv ks 0 bs

/-- Adding the same keystream a second time takes it away. -/
theorem ctrCryptFrom_ctrCryptFrom (iv : Block) (ks : Schedule) (j : Nat) (bs : List Block) :
    ctrCryptFrom iv ks j (ctrCryptFrom iv ks j bs) = bs := by
  induction bs generalizing j with
  | nil => rfl
  | cons b bs ih => rw [ctrCryptFrom, ctrCryptFrom, addRoundKey_addRoundKey, ih]

theorem ctrCrypt_ctrCrypt (bs : List Block) (iv : Block) (ks : Schedule) :
    ctrCrypt (ctrCrypt bs iv ks) iv ks = bs := ctrCryptFrom_ctrCryptFrom iv ks 0 bs

theorem ctrCrypt_singleton (b iv : Block) (ks : Schedule) :
    ctrCrypt [b] iv ks = [addRoundKey b (cipher iv ks)] := by
  rw [ctrCrypt, ctrCryptFrom, ctrCryptFrom, counterBlock_zero]

/-- The sequencer, met with BLK = j, transforms the blocks from index j on, as long as their indices fit the 22
bits of BLK. -/
theorem sequenceBlocks_ctrStep (iv : Block) (ks : Schedule) (en : Bool) {bs : List Block} {w : Working} {j : Nat}
    (hblk : w.blk = BitVec.ofNat 22 j) (hfit : j + bs.length ≤ 2 ^ 22) :
    (sequenceBlocks (ctrStep iv ks en) bs w).2 =
      (ctrCryptFrom iv ks j bs, if en then ctrTraceFrom iv ks j bs.length else []) := by
  induction bs generalizing w j with
  | nil => simp [sequenceBlocks, ctrCryptFrom, ctrTraceFrom]
  | cons b bs ih =>
    rw [List.length_cons] at hfit
    have hindex : w.blk.toNat = j := by
      rw [hblk, BitVec.toNat_ofNat, Nat.mod_eq_of_lt (by omega)]
    have hnext : (ctrStep iv ks en b w).1.blk = BitVec.ofNat 22 (j + 1) := by
      simp only [ctrStep, runPipeline_eq, Working.nextBlk_blk, Working.afterRun, hblk]
      exact (BitVec.ofNat_add j 1).symm
    have hstep : (ctrStep iv ks en b w).2 =
        (addRoundKey b (cipher (counterBlock iv j) ks),
          if en then forwardTrace (counterBlock iv j) ks else []) := by
      simp only [ctrStep, runPipeline_eq, Working.afterRun, hindex, pipelineResult, pipelineTrace]
    simp only [sequenceBlocks, ih hnext (by omega), hstep, ctrCryptFrom, List.length_cons, ctrTraceFrom_succ]
    cases en <;> rfl

/-! ## The sequencers on a payload -/

/-- The end of a sequencer command, whose working registers are freed (`finish_work`). -/
theorem runSequencer_eq {step : Block → Working → Working × Block × List TraceRecord} {ls : List Lane} {s : State}
    {out : List Block} {trace : List TraceRecord}
    (h : (sequenceBlocks step (blocksOf ls) { s.work with blk := 0 }).2 = (out, trace)) :
    runSequencer step ls s = .next (s.finish (okResponse 0x00 (lanesOf out) trace)) := by
  simp only [runSequencer, h, respond_eq, finish_work]

theorem runEcb_eq (dir : Direction) (ks : Schedule) (ls : List Lane) (s : State) :
    runEcb dir ks ls s =
      .next (s.finish (okResponse 0x00 (lanesOf (ecbResult dir (blocksOf ls) ks))
        (if s.core.traceEn then ecbTrace dir (blocksOf ls) ks else []))) :=
  runSequencer_eq (sequenceBlocks_ecbStep dir ks s.core.traceEn _ _)

/-- No payload whose length fits the 24 bits of `ncols` has more blocks than BLK counts. -/
theorem runCtr_eq (ks : Schedule) {ls : List Lane} (hfit : ls.length ≤ 2 ^ 24) (s : State) :
    runCtr ks ls s =
      .next (s.finish (okResponse 0x00 (lanesOf (ctrCrypt (blocksOf ls) s.core.iv ks))
        (if s.core.traceEn then ctrTrace (ls.length / 4) s.core.iv ks else []))) := by
  have hblocks : 0 + (blocksOf ls).length ≤ 2 ^ 22 := by
    rw [length_blocksOf_eq_div]
    omega
  rw [← length_blocksOf_eq_div, ← ctrTraceFrom_zero]
  exact runSequencer_eq (sequenceBlocks_ctrStep s.core.iv ks s.core.traceEn rfl hblocks)

end Sys2Proof.Machine
end

section
/-! The commands of the mode layer (`46_modes.md` rules R190 to R206). The counted commands share one prelude: the key
check, then the shape check. After it ECBE and ECBD are one command in two directions, and so are ENC and DEC. -/

namespace Sys2Proof.Machine

/-! ## Words without reserved bits -/

/-- How the words of the formats I and C are taken at the port (R72). -/
theorem wideWords_of_decode {op : Byte} {f : BitVec 24 → Instr}
    (h : ∀ w, opField w = op → decode w = .ok (f (immField w))) : WideWords op f :=
  fun w hop => acceptedAs_of_decode (h w hop)

/-! ## SETMODE, SETIV and CTRB -/

theorem exec_setmode {s : State} (hd : s.din = []) (mode : Byte) :
    exec (.setmode 0x01 mode) s =
      (Mode.ofSelector mode).elim (raise .unsupportedMode s) fun m =>
        respond 0x00 [] [] { s with core := s.core.setMode m } := by
  rw [exec, execSetmode, withNoPayload_of_nil hd, if_neg (not_not.mpr rfl)]
  cases Mode.ofSelector mode <;> rfl

theorem exec_setmode_of_alg {s : State} (hd : s.din = []) {alg : Byte} (halg : alg ≠ 0x01) (mode : Byte) :
    exec (.setmode alg mode) s = raise .malformedTransformationString s := by
  rw [exec, execSetmode, withNoPayload_of_nil hd, if_pos halg]

/-- Settles O42: the algorithm code is checked first, and `Mode.ofSelector` knows the mode codes 1 and 2 only. -/
theorem setmodeSelectsTheMode : Obligations.SetmodeSelectsTheMode := by
  unfold Obligations.SetmodeSelectsTheMode
  refine ⟨b2Words_of_decode fun w hop => by simp [decode, hop], fun s alg mode hd => ⟨?alg, ?mode, ?ecb, ?ctr⟩⟩
  case alg => exact fun halg => exec_setmode_of_alg hd halg mode
  case mode =>
    rintro rfl hecb hctr
    have hnone : Mode.ofSelector mode = none := (if_neg hecb).trans (if_neg hctr)
    rw [exec_setmode hd, hnone, Option.elim_none, raise_eq]
  case ecb =>
    rintro rfl rfl
    exact exec_setmode hd 0x01
  case ctr =>
    rintro rfl rfl
    exact exec_setmode hd 0x02

/-- Settles O43: SETIV asks for one block and nothing else. -/
theorem setivLoadsTheIv : Obligations.SetivLoadsTheIv := by
  unfold Obligations.SetivLoadsTheIv
  exact ⟨noImmWords_of_decode fun w hop => by simp [decode, hop],
    fun s v hd => withBlock_of_lanes hd fun v => respond 0x00 [] [] { s with core := s.core.setIv v }⟩

/-- CTRB without a payload answers with the counter block of its index, if there is one. -/
theorem exec_ctrb {s : State} (hd : s.din = []) (idx : BitVec 24) :
    exec (.ctrb idx) s =
      (ctrBlock s.core.iv (sint24 idx)).elim (raise .negativeCounterIndex s) fun b => respond 0x00 b.lanes [] s := by
  rw [exec, execCtrb, withNoPayload_of_nil hd]
  cases ctrBlock s.core.iv (sint24 idx) <;> rfl

/-- Settles O44: bit 23 is the sign of the index (`sint24_neg`, `sint24_eq_toNat`). -/
theorem ctrbBuildsTheCounterBlock : Obligations.CtrbBuildsTheCounterBlock := by
  unfold Obligations.CtrbBuildsTheCounterBlock
  refine ⟨wideWords_of_decode fun w hop => by simp [decode, hop], fun s idx hd => ⟨fun hsign => ?_, fun hsign => ?_⟩⟩
  · rw [exec_ctrb hd, ctrBlock_of_neg _ (sint24_neg hsign), Option.elim_none, raise_eq]
  · rw [exec_ctrb hd, sint24_eq_toNat hsign, ctrBlock_of_nonneg _ (Int.natCast_nonneg _), Option.elim_some, respond_eq,
      Int.toNat_natCast, counterBlock]

/-! ## The prelude of the counted commands -/

/-- `i n` is a command of format C that does `work` once its key and its shape are checked (R200 to R205). -/
def Counted (i : Instr) (work : State → Schedule → List Lane → Answer) : Prop :=
  ∀ s, exec i s =
    withLanes i.dinLen s fun ls => withSchedule s fun ks => withShape i.dinLen s (work s ks ls)

section
variable {i : Instr} {work : State → Schedule → List Lane → Answer} (hi : Counted i work) {s : State}
  (hlen : s.din.length = i.dinLen)
include hi hlen

theorem Counted.exec_of_noKey (hkey : s.core.key = none) :
    exec i s = .next (s.finish (errorResponse .uninitializedKey)) := by
  rw [hi s, withLanes_of_length hlen, withSchedule_of_none hkey, raise_eq]

theorem Counted.exec_of_badShape {k : KeyRegs} (hkey : s.core.key = some k) (hbad : i.dinLen = 0 ∨ i.dinLen % 4 ≠ 0) :
    exec i s = .next (s.finish (errorResponse .invalidBlockShape)) := by
  rw [hi s, withLanes_of_length hlen, withSchedule_of_some hkey, withShape_of_bad hbad, raise_eq]

theorem Counted.exec_of_whole {k : KeyRegs} (hkey : s.core.key = some k) (h0 : i.dinLen ≠ 0) (h4 : i.dinLen % 4 = 0) :
    exec i s = work s k.ks s.din := by
  rw [hi s, withLanes_of_length hlen, withSchedule_of_some hkey, withShape_of_whole h0 h4]

end

/-! ## ECBE and ECBD -/

theorem counted_ecbe (n : BitVec 24) : Counted (.ecbe n) fun s ks ls => runEcb .forward ks ls s := fun _ => rfl

theorem counted_ecbd (n : BitVec 24) : Counted (.ecbd n) fun s ks ls => runEcb .inverse ks ls s := fun _ => rfl

/-- Settles O45: the split and the reassembly by `exists_lanesOf_blocksOf_append` and `getElem?_lanesOf`, the answers by
the prelude and the ECB sequencer (`runEcb_eq`). -/
theorem ecbeAndEcbdAnswer : Obligations.EcbeAndEcbdAnswer := by
  unfold Obligations.EcbeAndEcbdAnswer
  refine ⟨⟨length_blocksOf_eq_div, fun ls j b => blockAt_of_blocksOf, length_lanesOf, fun bs j b => blockAt_lanesOf⟩,
    wideWords_of_decode fun w hop => by simp [decode, hop], wideWords_of_decode fun w hop => by simp [decode, hop],
    fun s n hlen => ⟨fun hkey => ?noKey, fun k hkey => ⟨fun hbad => ?badShape, fun h0 h4 => ?whole⟩⟩⟩
  case noKey => exact ⟨(counted_ecbe n).exec_of_noKey hlen hkey, (counted_ecbd n).exec_of_noKey hlen hkey⟩
  case badShape =>
    exact ⟨(counted_ecbe n).exec_of_badShape hlen hkey hbad, (counted_ecbd n).exec_of_badShape hlen hkey hbad⟩
  case whole =>
    exact ⟨((counted_ecbe n).exec_of_whole hlen hkey h0 h4).trans (runEcb_eq .forward k.ks s.din s),
      ((counted_ecbd n).exec_of_whole hlen hkey h0 h4).trans (runEcb_eq .inverse k.ks s.din s)⟩

/-- R206 (c) for one direction of the ECB sequencer. -/
theorem blocksOf_ecbResult_congr (dir : Direction) (ks : Schedule) {bs cs : List Block} {j : Nat}
    (h : bs[j]? = cs[j]?) :
    (blocksOf (lanesOf (ecbResult dir bs ks)))[j]? = (blocksOf (lanesOf (ecbResult dir cs ks)))[j]? := by
  rw [blocksOf_lanesOf, blocksOf_lanesOf, getElem?_ecbResult, getElem?_ecbResult, h]

/-- Settles O53: both outputs come from the ECB sequencer, which maps the blocks one by one. -/
theorem ecbBlocksAreIndependent : Obligations.EcbBlocksAreIndependent := by
  unfold Obligations.EcbBlocksAreIndependent
  intro f hf s u n k j hskey hukey hslen hulen h0 h4 hj
  have hanswer : ∃ dir, ∀ t : State, t.core.key = some k → t.din.length = n.toNat →
      exec (f n) t = runEcb dir k.ks t.din t := by
    rcases hf with rfl | rfl
    · exact ⟨.forward, fun t hkey hlen => (counted_ecbe n).exec_of_whole hlen hkey h0 h4⟩
    · exact ⟨.inverse, fun t hkey hlen => (counted_ecbd n).exec_of_whole hlen hkey h0 h4⟩
  obtain ⟨dir, hexec⟩ := hanswer
  exact ⟨_, _, _, _, (hexec s hskey hslen).trans (runEcb_eq dir k.ks s.din s),
    (hexec u hukey hulen).trans (runEcb_eq dir k.ks u.din u), blocksOf_ecbResult_congr dir k.ks hj⟩

/-! ## CTRX -/

theorem counted_ctrx (n : BitVec 24) : Counted (.ctrx n) fun s ks ls => runCtr ks ls s := fun _ => rfl

theorem exec_ctrx {s : State} {n : BitVec 24} {k : KeyRegs} (hlen : s.din.length = n.toNat)
    (hkey : s.core.key = some k) (h0 : n.toNat ≠ 0) (h4 : n.toNat % 4 = 0) :
    exec (.ctrx n) s =
      .next (s.finish (okResponse 0x00 (lanesOf (ctrCrypt (blocksOf s.din) s.core.iv k.ks))
        (if s.core.traceEn then ctrTrace (n.toNat / 4) s.core.iv k.ks else []))) := by
  rw [(counted_ctrx n).exec_of_whole hlen hkey h0 h4, runCtr_eq k.ks (hlen ▸ n.isLt.le) s, hlen]

/-- Settles O46, by the prelude and the CTR sequencer. -/
theorem ctrxAnswers : Obligations.CtrxAnswers := by
  unfold Obligations.CtrxAnswers
  exact ⟨wideWords_of_decode fun w hop => by simp [decode, hop],
    fun s n hlen => ⟨(counted_ctrx n).exec_of_noKey hlen,
      fun k hkey => ⟨(counted_ctrx n).exec_of_badShape hlen hkey, exec_ctrx hlen hkey⟩⟩⟩

/-- Settles O52: the second CTRX adds the same keystream again (`ctrCrypt_ctrCrypt`). -/
theorem ctrxUndoesItself : Obligations.CtrxUndoesItself := by
  unfold Obligations.CtrxUndoesItself
  intro s n k hkey hlen h0 h4
  refine ⟨_, _, exec_ctrx hlen hkey h0 h4, fun u hukey huiv hud => ?_⟩
  have hulen : u.din.length = n.toNat := by
    rw [hud, length_lanesOf, length_ctrCrypt, length_blocksOf_eq_div]
    omega
  have hback : lanesOf (ctrCrypt (blocksOf u.din) u.core.iv k.ks) = s.din := by
    rw [hud, huiv, blocksOf_lanesOf, ctrCrypt_ctrCrypt, lanesOf_blocksOf (hlen ▸ h4)]
  exact ⟨_, hback ▸ exec_ctrx hulen (hukey.trans hkey) h0 h4⟩

/-! ## ENC and DEC -/

section
variable {s : State} {n : BitVec 24} (dir : Direction) (ks : Schedule)

/-- One block goes to the pipeline of the direction whatever MODE holds, and mode ECB selects the same sequencer. -/
theorem dispatchMode_eq_runEcb (h : n = 4 ∨ s.core.mode = .ecb) (ls : List Lane) :
    dispatchMode dir n ks ls s = runEcb dir ks ls s := by
  by_cases hn : n = 4
  · exact if_pos hn
  · rw [dispatchMode, if_neg hn, h.resolve_left hn]

theorem dispatchMode_eq_runCtr (hn : n ≠ 4) (hmode : s.core.mode = .ctr) (ls : List Lane) :
    dispatchMode dir n ks ls s = runCtr ks ls s := by
  rw [dispatchMode, if_neg hn, hmode]

theorem dispatchMode_eq_raise (hn : n ≠ 4) (hmode : s.core.mode = .noMode) (ls : List Lane) :
    dispatchMode dir n ks ls s = raise .unsupportedMode s := by
  rw [dispatchMode, if_neg hn, hmode]

end

/-- The top-level command of a direction (R204, R205). -/
def topCommand : Direction → BitVec 24 → Instr
  | .forward => .enc
  | .inverse => .dec

theorem dinLen_topCommand (dir : Direction) (n : BitVec 24) : (topCommand dir n).dinLen = n.toNat := by
  cases dir <;> rfl

theorem counted_topCommand (dir : Direction) (n : BitVec 24) :
    Counted (topCommand dir n) fun s ks ls => dispatchMode dir n ks ls s := by
  cases dir <;> exact fun _ => rfl

theorem ne_four_of_le {n : BitVec 24} (h8 : 8 ≤ n.toNat) : n ≠ 4 := by
  rintro rfl
  exact absurd h8 (by decide)

section
variable (dir : Direction) {s : State} {n : BitVec 24} {k : KeyRegs} (hlen : s.din.length = n.toNat)
  (hkey : s.core.key = some k)
include hlen hkey

theorem exec_topCommand (h0 : n.toNat ≠ 0) (h4 : n.toNat % 4 = 0) :
    exec (topCommand dir n) s = dispatchMode dir n k.ks s.din s := by
  rw [← dinLen_topCommand dir] at hlen h0 h4
  exact (counted_topCommand dir n).exec_of_whole hlen hkey h0 h4

theorem exec_topCommand_of_oneBlock (hn : n.toNat = 4) {x : Block} (hd : s.din = x.lanes) :
    exec (topCommand dir n) s =
      .next (s.finish (okResponse 0x00 (pipelineResult dir x k.ks).lanes
        (if s.core.traceEn then pipelineTrace dir x k.ks else []))) := by
  have h4 : n = 4 := BitVec.eq_of_toNat_eq hn
  rw [exec_topCommand dir hlen hkey (by omega) (by omega), dispatchMode_eq_runEcb dir k.ks (.inl h4), runEcb_eq, hd,
    blocksOf_lanes, ecbResult_singleton, ecbTrace_singleton, lanesOf_cons, lanesOf_nil, List.append_nil]

theorem exec_topCommand_of_ecb (h8 : 8 ≤ n.toNat) (h4 : n.toNat % 4 = 0) (hmode : s.core.mode = .ecb) :
    exec (topCommand dir n) s =
      .next (s.finish (okResponse 0x00 (lanesOf (ecbResult dir (blocksOf s.din) k.ks))
        (if s.core.traceEn then ecbTrace dir (blocksOf s.din) k.ks else []))) := by
  rw [exec_topCommand dir hlen hkey (by omega) h4, dispatchMode_eq_runEcb dir k.ks (.inr hmode), runEcb_eq]

theorem exec_topCommand_of_ctr (h8 : 8 ≤ n.toNat) (h4 : n.toNat % 4 = 0) (hmode : s.core.mode = .ctr) :
    exec (topCommand dir n) s =
      .next (s.finish (okResponse 0x00 (lanesOf (ctrCrypt (blocksOf s.din) s.core.iv k.ks))
        (if s.core.traceEn then ctrTrace (n.toNat / 4) s.core.iv k.ks else []))) := by
  rw [exec_topCommand dir hlen hkey (by omega) h4, dispatchMode_eq_runCtr dir k.ks (ne_four_of_le h8) hmode,
    runCtr_eq k.ks (hlen ▸ n.isLt.le) s, hlen]

theorem exec_topCommand_of_noMode (h8 : 8 ≤ n.toNat) (h4 : n.toNat % 4 = 0) (hmode : s.core.mode = .noMode) :
    exec (topCommand dir n) s = .next (s.finish (errorResponse .unsupportedMode)) := by
  rw [exec_topCommand dir hlen hkey (by omega) h4, dispatchMode_eq_raise dir k.ks (ne_four_of_le h8) hmode, raise_eq]

end

/-- Settles O47: after the prelude, one block or the mode decides (`exec_topCommand`). -/
theorem encAnswers : Obligations.EncAnswers := by
  unfold Obligations.EncAnswers
  exact ⟨wideWords_of_decode fun w hop => by simp [decode, hop],
    fun s n hlen => ⟨(counted_topCommand .forward n).exec_of_noKey hlen,
      fun k hkey => ⟨(counted_topCommand .forward n).exec_of_badShape hlen hkey,
        fun hn x hd => exec_topCommand_of_oneBlock .forward hlen hkey hn hd,
        fun h8 h4 => ⟨exec_topCommand_of_ecb .forward hlen hkey h8 h4, exec_topCommand_of_ctr .forward hlen hkey h8 h4,
          exec_topCommand_of_noMode .forward hlen hkey h8 h4⟩⟩⟩⟩

/-- Settles O48, as O47 in the other direction. -/
theorem decAnswers : Obligations.DecAnswers := by
  unfold Obligations.DecAnswers
  exact ⟨wideWords_of_decode fun w hop => by simp [decode, hop],
    fun s n hlen => ⟨(counted_topCommand .inverse n).exec_of_noKey hlen,
      fun k hkey => ⟨(counted_topCommand .inverse n).exec_of_badShape hlen hkey,
        fun hn x hd => exec_topCommand_of_oneBlock .inverse hlen hkey hn hd,
        fun h8 h4 => ⟨exec_topCommand_of_ecb .inverse hlen hkey h8 h4, exec_topCommand_of_ctr .inverse hlen hkey h8 h4,
          exec_topCommand_of_noMode .inverse hlen hkey h8 h4⟩⟩⟩⟩

/-- What ENC and DEC of `n` columns compute in a selected mode (R203 to R205). -/
def topResult (dir : Direction) (n : BitVec 24) (c : CoreState) (ks : Schedule) (bs : List Block) : List Block :=
  if n = 4 ∨ c.mode = .ecb then ecbResult dir bs ks else ctrCrypt bs c.iv ks

theorem length_topResult (dir : Direction) (n : BitVec 24) (c : CoreState) (ks : Schedule) (bs : List Block) :
    (topResult dir n c ks bs).length = bs.length := by
  unfold topResult
  split
  · exact length_ecbResult dir bs ks
  · exact length_ctrCrypt bs c.iv ks

theorem topResult_inverse_forward (n : BitVec 24) (c : CoreState) (ks : Schedule) (bs : List Block) :
    topResult .inverse n c ks (topResult .forward n c ks bs) = bs := by
  unfold topResult
  split
  · exact ecbResult_inverse_forward bs ks
  · exact ctrCrypt_ctrCrypt bs c.iv ks

theorem exists_exec_topCommand (dir : Direction) {s : State} {n : BitVec 24} {k : KeyRegs}
    (hlen : s.din.length = n.toNat) (hkey : s.core.key = some k) (hmode : s.core.mode ≠ .noMode) (h0 : n.toNat ≠ 0)
    (h4 : n.toNat % 4 = 0) :
    ∃ tr, exec (topCommand dir n) s =
      .next (s.finish (okResponse 0x00 (lanesOf (topResult dir n s.core k.ks (blocksOf s.din))) tr)) := by
  rw [exec_topCommand dir hlen hkey h0 h4, topResult]
  by_cases hecb : n = 4 ∨ s.core.mode = .ecb
  · rw [dispatchMode_eq_runEcb dir k.ks hecb, if_pos hecb]
    exact ⟨_, runEcb_eq dir k.ks s.din s⟩
  · obtain ⟨hn, hne⟩ := not_or.mp hecb
    have hctr : s.core.mode = .ctr := by
      cases hm : s.core.mode with
      | noMode => exact absurd hm hmode
      | ecb => exact absurd hm hne
      | ctr => rfl
    rw [dispatchMode_eq_runCtr dir k.ks hn hctr, if_neg hecb]
    exact ⟨_, runCtr_eq k.ks (hlen ▸ n.isLt.le) s⟩

/-- Settles O51: DEC meets the same count and the same MODE and IV, so it undoes the transform that ENC chose
(`topResult_inverse_forward`). -/
theorem decUndoesEnc : Obligations.DecUndoesEnc := by
  unfold Obligations.DecUndoesEnc
  intro s n k hkey hmode hlen h0 h4
  obtain ⟨tr, henc⟩ := exists_exec_topCommand .forward hlen hkey hmode h0 h4
  refine ⟨_, tr, henc, fun u hcore hud => ?_⟩
  have hulen : u.din.length = n.toNat := by
    rw [hud, length_lanesOf, length_topResult, length_blocksOf_eq_div]
    omega
  have hback : lanesOf (topResult .inverse n u.core k.ks (blocksOf u.din)) = s.din := by
    rw [hud, hcore, blocksOf_lanesOf, topResult_inverse_forward, lanesOf_blocksOf (hlen ▸ h4)]
  obtain ⟨tr', hdec⟩ := exists_exec_topCommand .inverse hulen (hcore ▸ hkey) (hcore ▸ hmode) h0 h4
  exact ⟨tr', hback ▸ hdec⟩

/-! ## One block -/

/-- Settles O55: ENC 4 and CIPH run the forward pipeline on the block; the keystream of CTRX 4 is the cipher of the IV
itself (`ctrCrypt_singleton`). -/
theorem singleBlockBypassesTheMode : Obligations.SingleBlockBypassesTheMode := by
  unfold Obligations.SingleBlockBypassesTheMode
  intro s x k m v hd hkey
  obtain ⟨-, -, hciph⟩ := ciphAndIciphAnswer
  obtain ⟨-, hwithKey⟩ := hciph s x hd
  obtain ⟨hciph, -⟩ := hwithKey k hkey
  have hlen : s.din.length = (4 : BitVec 24).toNat := congrArg List.length hd
  have hctrx := exec_ctrx hlen hkey (by decide) (by decide)
  rw [hd, blocksOf_lanes, ctrCrypt_singleton, lanesOf_cons, lanesOf_nil, List.append_nil] at hctrx
  exact ⟨_, exec_topCommand_of_oneBlock .forward hlen hkey rfl hd, hciph,
    exec_topCommand_of_oneBlock (s := { s with core := { s.core with mode := m, iv := v } }) .forward hlen hkey rfl hd,
    _, hctrx⟩

end Sys2Proof.Machine
end

section
/-! The trace (`47_trace.md` rules R220 to R227): how many records a command emits, and who writes TRACE_EN. -/

namespace Sys2Proof.Machine

/-! ## The number of records -/

/-- The response that a completed command added has the command's format. -/
theorem fits_of_exec_next {i : Instr} {s t : State} {r : Response} (h : exec i s = .next t)
    (hr : t.responses = s.responses ++ [r]) : r.Fits i s.core.traceEn := by
  obtain ⟨c, q, hq, rfl⟩ := exec_next_fits h
  have hlist : s.responses ++ [q] = s.responses ++ [r] := hr
  obtain rfl : q = r := List.singleton_inj.mp (List.append_cancel_left hlist)
  exact hq

/-- Settles O16: the count is part of a response's format (`exec_takes`), one run of 52 records for each block. -/
theorem traceHasFiftyTwoRecordsPerBlock : Obligations.TraceHasFiftyTwoRecordsPerBlock := by
  unfold Obligations.TraceHasFiftyTwoRecordsPerBlock
  intro i s t r h hr hok
  exact (fits_of_exec_next h hr).trace hok

/-! ## The writers of TRACE_EN -/

theorem CoreWrite.traceEn {i : Instr} {c c' : CoreState} (h : CoreWrite i c c') (hon : i ≠ .tron) (hoff : i ≠ .troff) :
    c'.traceEn = c.traceEn := by
  cases h with
  | tron => exact absurd rfl hon
  | troff => exact absurd rfl hoff
  | keep | ldkey | setmode | setiv => rfl

/-- Settles O56: without a payload TRON and TROFF respond at once, and no other write of R36 touches TRACE_EN. -/
theorem traceCommandsSetTheFlag : Obligations.TraceCommandsSetTheFlag := by
  unfold Obligations.TraceCommandsSetTheFlag
  refine ⟨noImmWords_of_decode fun w hop => by simp [decode, hop], noImmWords_of_decode fun w hop => by simp [decode, hop],
    fun s hd => ⟨?tron, ?troff⟩, fun i s t hon hoff h => ?others⟩
  case tron => exact withNoPayload_of_nil hd _
  case troff => exact withNoPayload_of_nil hd _
  case others =>
    obtain ⟨c, r, hc, -, rfl⟩ := exec_next h
    exact hc.traceEn hon hoff

end Sys2Proof.Machine
end

section
/-! The errors (`60_exceptions.md` rules R240 to R250): which command may raise which kind and when, and that an error
changes no persistent register. Every statement comes from one inversion of `exec`, `exec_completes`. -/

namespace Sys2Proof.Machine

/-! ## Why an error is raised -/

/-- What must hold of a command and of the persistent registers it meets when it raises a kind: the check of R242, the
check of R243, for IllegalCommand a term that no word decodes to, and for the other kinds the row of R241. -/
def Raises (i : Instr) (c : CoreState) : ErrorKind → Prop
  | .uninitializedKey => readsSchedule i = true ∧ c.key = none
  | .invalidBlockShape => i.format = .c ∧ (i.dinLen = 0 ∨ i.dinLen % 4 ≠ 0)
  | .illegalCommand => i.wellFormed = false
  | kind => mayRaise i kind = true

theorem Raises.mayRaise {i : Instr} {c : CoreState} {kind : ErrorKind} (h : Raises i c kind)
    (hwf : i.wellFormed = true) : mayRaise i kind = true := by
  cases kind with
  | uninitializedKey => exact h.1
  | invalidBlockShape => exact beq_iff_eq.mpr h.1
  | illegalCommand => cases hwf.symm.trans h
  | unsupportedMode | malformedTransformationString | dimensionMismatch | negativeCounterIndex => exact h

/-- Command `i` takes the state `s` to `t` by succeeding, or by raising an error for which it has a reason. -/
def Completes (i : Instr) (s t : State) : Prop :=
  (∃ c r, r.status = .ok ∧ t = ({ s with core := c } : State).finish r) ∨
    ∃ kind, Raises i s.core kind ∧ t = s.finish (errorResponse kind)

/-! ## Ends and checks -/

section
variable {i : Instr} {s t : State}

theorem completes_respond {rb : Byte} {dout : List Lane} {trace : List TraceRecord} {c : CoreState} {w : Working}
    (h : respond rb dout trace { s with core := c, work := w } = .next t) : Completes i s t :=
  .inl ⟨c, okResponse rb dout trace, rfl, (Host.Outcome.next.inj h).symm⟩

theorem completes_raise {kind : ErrorKind} (hk : Raises i s.core kind) (h : raise kind s = .next t) :
    Completes i s t :=
  .inr ⟨kind, hk, (Host.Outcome.next.inj h).symm⟩

theorem completes_withSchedule (hi : readsSchedule i = true) {go : Schedule → Answer}
    (hgo : ∀ ks, go ks = .next t → Completes i s t) (h : withSchedule s go = .next t) : Completes i s t := by
  rcases withSchedule_cases s go with ⟨hkey, hs⟩ | ⟨k, -, hs⟩ <;> rw [hs] at h
  · exact completes_raise (kind := .uninitializedKey) ⟨hi, hkey⟩ h
  · exact hgo k.ks h

theorem completes_withShape (hi : i.format = .c) {go : Answer} (hgo : go = .next t → Completes i s t)
    (h : withShape i.dinLen s go = .next t) : Completes i s t := by
  rcases withShape_cases i.dinLen s go with ⟨hbad, hs⟩ | ⟨-, -, hs⟩ <;> rw [hs] at h
  · exact completes_raise (kind := .invalidBlockShape) ⟨hi, hbad⟩ h
  · exact hgo h

/-! ## The counted commands -/

theorem readsSchedule_of_format (hi : i.format = .c) : readsSchedule i = true := by
  cases i with
  | ecbe | ecbd | ctrx | enc | dec => rfl
  | _ => cases hi

theorem exists_counted_of_format (hi : i.format = .c) : ∃ work, Counted i work := by
  cases i with
  | ecbe n => exact ⟨_, counted_ecbe n⟩
  | ecbd n => exact ⟨_, counted_ecbd n⟩
  | ctrx n => exact ⟨_, counted_ctrx n⟩
  | enc n => exact ⟨_, counted_topCommand .forward n⟩
  | dec n => exact ⟨_, counted_topCommand .inverse n⟩
  | _ => cases hi

theorem Counted.completes {work : State → Schedule → List Lane → Answer} (hwork : Counted i work) (hi : i.format = .c)
    (hdone : ∀ ks ls, work s ks ls = .next t → Completes i s t) (h : exec i s = .next t) : Completes i s t := by
  rw [hwork s] at h
  obtain ⟨-, h⟩ := withLanes_next h
  exact completes_withSchedule (readsSchedule_of_format hi) (fun ks h => completes_withShape hi (hdone ks _) h) h

theorem completes_dispatchMode {dir : Direction} {n : BitVec 24} {ks : Schedule} {ls : List Lane}
    (h : dispatchMode dir n ks ls s = .next t) : Completes (topCommand dir n) s t := by
  unfold dispatchMode at h
  split at h
  · exact completes_respond h
  · split at h
    · exact completes_respond h
    · exact completes_respond h
    · exact completes_raise (kind := .unsupportedMode) (by cases dir <;> rfl) h

end

/-! ## The other commands with more than one end -/

section
variable {s t : State}

theorem completes_execMadd {na nb : BitVec 12} (h : execMadd na nb s = .next t) : Completes (.madd na nb) s t := by
  obtain ⟨-, h⟩ := withLanes_next h
  split at h
  · exact completes_raise (kind := .dimensionMismatch) rfl h
  · exact completes_respond h

theorem completes_execRdrk {r : BitVec 4} (h : execRdrk r s = .next t) : Completes (.rdrk r) s t := by
  obtain ⟨-, h⟩ := withNoPayload_next h
  split at h
  · exact completes_withSchedule rfl (fun _ => completes_respond) h
  · next hr => exact completes_raise (kind := .illegalCommand) (decide_eq_false hr) h

theorem completes_execSetmode {alg mode : Byte} (h : execSetmode alg mode s = .next t) :
    Completes (.setmode alg mode) s t := by
  obtain ⟨-, h⟩ := withNoPayload_next h
  split at h
  · exact completes_raise (kind := .malformedTransformationString) rfl h
  · split at h
    · exact completes_raise (kind := .unsupportedMode) rfl h
    · exact completes_respond h

theorem completes_execCtrb {idx : BitVec 24} (h : execCtrb idx s = .next t) : Completes (.ctrb idx) s t := by
  obtain ⟨-, h⟩ := withNoPayload_next h
  split at h
  · exact completes_raise (kind := .negativeCounterIndex) rfl h
  · exact completes_respond h

end

/-! ## Every command -/

/-- Each of the 29 commands is its operand form, its checks and its ends; only a check or an end that raises gives an
error. -/
theorem exec_completes {i : Instr} {s t : State} (h : exec i s = .next t) : Completes i s t := by
  unfold exec at h
  cases i with
  | add | xtime | mul | sbox | isbox | tron | troff =>
    obtain ⟨-, h⟩ := withNoPayload_next h
    exact completes_respond h
  | rotw | subw =>
    obtain ⟨_, -, h⟩ := withCol_next h
    exact completes_respond h
  | subb | isubb | shrow | ishrow | mixc | imixc | ldkey | setiv =>
    obtain ⟨_, -, h⟩ := withBlock_next h
    exact completes_respond h
  | ark =>
    obtain ⟨_, _, -, h⟩ := withTwoBlocks_next h
    exact completes_respond h
  | ciph | iciph =>
    obtain ⟨_, -, h⟩ := withBlock_next h
    exact completes_withSchedule rfl (fun _ => completes_respond) h
  | madd na nb => exact completes_execMadd h
  | rdrk r => exact completes_execRdrk h
  | setmode alg mode => exact completes_execSetmode h
  | ctrb idx => exact completes_execCtrb h
  | ecbe n => exact (counted_ecbe n).completes rfl (fun _ _ => completes_respond) h
  | ecbd n => exact (counted_ecbd n).completes rfl (fun _ _ => completes_respond) h
  | ctrx n => exact (counted_ctrx n).completes rfl (fun _ _ => completes_respond) h
  | enc n => exact (counted_topCommand .forward n).completes rfl (fun _ _ => completes_dispatchMode) h
  | dec n => exact (counted_topCommand .inverse n).completes rfl (fun _ _ => completes_dispatchMode) h

theorem eq_of_finish_responses {s : State} {q r : Response} (h : (s.finish q).responses = s.responses ++ [r]) : q = r :=
  List.singleton_inj.mp (List.append_cancel_left h)

/-- A command whose response is an error had a reason to raise it, and did nothing else. -/
theorem raises_of_exec_error {i : Instr} {s t : State} {r : Response} {kind : ErrorKind} (h : exec i s = .next t)
    (hr : t.responses = s.responses ++ [r]) (hkind : r.status = .error kind) :
    Raises i s.core kind ∧ t = s.finish (errorResponse kind) ∧ r = errorResponse kind := by
  obtain ⟨c, q, hok, rfl⟩ | ⟨k, hk, rfl⟩ := exec_completes h
  · obtain rfl : q = r := eq_of_finish_responses (s := { s with core := c }) hr
    cases hok.symm.trans hkind
  · obtain rfl : errorResponse k = r := eq_of_finish_responses hr
    obtain rfl : k = kind := Status.error.inj hkind
    exact ⟨hk, rfl, rfl⟩

/-! ## The statements -/

/-- Settles O14: a step that adds an error response rejects a word or executes a command that raises; waiting and reset
add no response. -/
theorem errorsChangeNoRegister : Obligations.ErrorsChangeNoRegister := by
  unfold Obligations.ErrorsChangeNoRegister
  intro s t r h hr herr
  obtain ⟨-, hs⟩ | ⟨rest, -, hs⟩ | ⟨c, rest, why, -, -, hs⟩ | ⟨c, rest, i, -, -, hs⟩ := step_cases s <;> rw [hs] at h
  · cases h
    simp at hr
  · cases h
    simp at hr
  · obtain ⟨-, rfl⟩ := illegalWord_next h
    obtain rfl := eq_of_finish_responses (s := s.accept c rest) hr
    exact ⟨rfl, rfl, rfl, rfl⟩
  · cases hkind : r.status with
    | ok => exact absurd hkind herr
    | error kind =>
      obtain ⟨-, rfl, rfl⟩ := raises_of_exec_error h hr hkind
      exact ⟨rfl, rfl, rfl, rfl⟩

theorem exec_of_format_of_noKey {i : Instr} {s : State} (hi : i.format = .c) (hlen : s.din.length = i.dinLen)
    (hkey : s.core.key = none) : exec i s = .next (s.finish (errorResponse .uninitializedKey)) := by
  obtain ⟨work, hwork⟩ := exists_counted_of_format hi
  exact hwork.exec_of_noKey hlen hkey

/-- The key check comes before every other check of a command that a word decodes to (R242, R249). -/
theorem exec_of_noKey {i : Instr} {s : State} (hwf : i.wellFormed = true) (hreads : readsSchedule i = true)
    (hlen : s.din.length = i.dinLen) (hkey : s.core.key = none) :
    exec i s = .next (s.finish (errorResponse .uninitializedKey)) := by
  cases i with
  | rdrk r =>
    rw [exec_rdrk (List.eq_nil_of_length_eq_zero hlen) (of_decide_eq_true hwf), withSchedule_of_none hkey, raise_eq]
  | ciph =>
    obtain ⟨x, hx⟩ := exists_lanes hlen
    rw [exec, execCiph, withBlock_of_lanes hx, withSchedule_of_none hkey, raise_eq]
  | iciph =>
    obtain ⟨x, hx⟩ := exists_lanes hlen
    rw [exec, execIciph, withBlock_of_lanes hx, withSchedule_of_none hkey, raise_eq]
  | ecbe n | ecbd n | ctrx n | enc n | dec n =>
    exact exec_of_format_of_noKey rfl hlen hkey
  | _ => cases hreads

/-- Settles O57: the key check by `exec_of_noKey`, its only way to be raised by `raises_of_exec_error`, and that a loaded
key stays by O18. -/
theorem uninitializedKeyComesFirst : Obligations.UninitializedKeyComesFirst := by
  unfold Obligations.UninitializedKeyComesFirst
  refine ⟨fun i s => exec_of_noKey, fun i s t r h hr hkind => ?raised, fun s t h hnoreset hkey => ?loaded, rfl⟩
  case raised =>
    obtain ⟨hraises, -⟩ := raises_of_exec_error h hr hkind
    exact hraises
  case loaded =>
    obtain ⟨hvalid, -⟩ := onlyResetClearsKeyAndMode s t h hnoreset
    exact Option.isSome_iff_ne_none.mp (hvalid (Option.isSome_iff_ne_none.mpr hkey))

/-- Settles O58: the shape check is part of the prelude of the counted commands, and no other check raises the kind. -/
theorem invalidBlockShapeOfCountedCommands : Obligations.InvalidBlockShapeOfCountedCommands := by
  unfold Obligations.InvalidBlockShapeOfCountedCommands
  refine ⟨fun i s k hi hlen hkey hbad => ?bad, fun i s t r h hr hkind => ?raised, rfl⟩
  case bad =>
    obtain ⟨work, hwork⟩ := exists_counted_of_format hi
    exact hwork.exec_of_badShape hlen hkey hbad
  case raised =>
    obtain ⟨hraises, -⟩ := raises_of_exec_error h hr hkind
    exact hraises

theorem Status.code_le_or_eq (st : Status) : st.code.toNat ≤ 0x06 ∨ st.code = 0xFF := by
  cases st with
  | ok => decide
  | error kind => cases kind <;> decide

/-- Settles O59: a raised kind has its reason (`raises_of_exec_error`), and the reason puts the command in the kind's row. -/
theorem errorKindsComeFromTheirCommands : Obligations.ErrorKindsComeFromTheirCommands := by
  unfold Obligations.ErrorKindsComeFromTheirCommands
  refine ⟨fun i s t r kind hwf h hr hkind => ?_, Status.code_le_or_eq, rfl, rfl, rfl, rfl, rfl, rfl, rfl, rfl⟩
  obtain ⟨hraises, -⟩ := raises_of_exec_error h hr hkind
  exact hraises.mayRaise hwf

end Sys2Proof.Machine
end

section
/-! Reset, and the hazards of the counter mode (`70_reset_and_hazards.md` rules R273, R278 and R282). -/

namespace Sys2Proof.Machine

/-- Settles O10: a reset event is taken as `State.resetEvent`, which sets every persistent register. -/
theorem resetDoesNotDependOnHistory : Obligations.ResetDoesNotDependOnHistory := by
  unfold Obligations.ResetDoesNotDependOnHistory
  intro s rest hp
  exact ⟨s.resetEvent rest, step_of_reset hp, s.resetEvent_core rest, rfl, s.resetEvent_responses rest⟩

/-! ## Counter values -/

/-- Settles O50: the counters are IV + j and IV + k modulo 2^128, and the indices are less than 2^128 apart. -/
theorem countersOfACommandDiffer : Obligations.CountersOfACommandDiffer := by
  unfold Obligations.CountersOfACommandDiffer
  intro iv j k hj hk h
  have hint : (iv.int + j) % 2 ^ 128 = (iv.int + k) % 2 ^ 128 := by
    rw [← int_counterBlock, h, int_counterBlock]
  omega

/-! ## The keystream -/

theorem toLane_xor (a b : Col) : (a.xor b).toLane = a.toLane ^^^ b.toLane := by
  simp only [Col.toLane, Col.xor, ← BitVec.xor_append]

theorem lanes_addRoundKey (b k : Block) : (addRoundKey b k).lanes = List.zipWith (· ^^^ ·) b.lanes k.lanes := by
  simp only [Block.lanes, List.zipWith_cons_cons, List.zipWith_nil_left, ← toLane_xor]
  rfl

/-- A key added to both sides does not show in the difference. -/
theorem xor_xor_xor_cancel (a b k : Lane) : (a ^^^ k) ^^^ (b ^^^ k) = a ^^^ b := by
  calc (a ^^^ k) ^^^ (b ^^^ k)
    _ = (a ^^^ b) ^^^ (k ^^^ k) := by ac_rfl
    _ = a ^^^ b := by rw [BitVec.xor_self, BitVec.xor_zero]

theorem zipWith_xor_lanes_addRoundKey (a b k : Block) :
    List.zipWith (· ^^^ ·) (addRoundKey a k).lanes (addRoundKey b k).lanes = List.zipWith (· ^^^ ·) a.lanes b.lanes := by
  rw [lanes_addRoundKey, lanes_addRoundKey]
  simp only [Block.lanes, List.zipWith_cons_cons, List.zipWith_nil_left, xor_xor_xor_cancel]

theorem zipWith_xor_lanesOf_cons (b c : Block) (bs cs : List Block) :
    List.zipWith (· ^^^ ·) (lanesOf (b :: bs)) (lanesOf (c :: cs)) =
      List.zipWith (· ^^^ ·) b.lanes c.lanes ++ List.zipWith (· ^^^ ·) (lanesOf bs) (lanesOf cs) := by
  rw [lanesOf_cons, lanesOf_cons, List.zipWith_append (by rw [Block.length_lanes, Block.length_lanes])]

/-- R278: blocks in the same place meet the same keystream block, which cancels. -/
theorem zipWith_xor_ctrCryptFrom (iv : Block) (ks : Schedule) (j : Nat) (bs cs : List Block) :
    List.zipWith (· ^^^ ·) (lanesOf (ctrCryptFrom iv ks j bs)) (lanesOf (ctrCryptFrom iv ks j cs)) =
      List.zipWith (· ^^^ ·) (lanesOf bs) (lanesOf cs) := by
  induction bs generalizing j cs with
  | nil => rfl
  | cons b bs ih =>
    cases cs with
    | nil => rw [ctrCryptFrom, lanesOf_nil, List.zipWith_nil_right, List.zipWith_nil_right]
    | cons c cs =>
      rw [ctrCryptFrom, ctrCryptFrom, zipWith_xor_lanesOf_cons, zipWith_xor_lanesOf_cons, ih,
        zipWith_xor_lanes_addRoundKey]

/-- Settles O54: both commands start their counters at the same IV (R196) and so add the same keystream. -/
theorem keystreamIsReused : Obligations.KeystreamIsReused := by
  unfold Obligations.KeystreamIsReused
  intro s u n k hskey hukey hiv hslen hulen h0 h4
  refine ⟨_, _, _, _, exec_ctrx hslen hskey h0 h4, exec_ctrx hulen hukey h0 h4, ?_⟩
  rw [← hiv, ctrCrypt, ctrCrypt, zipWith_xor_ctrCryptFrom, lanesOf_blocksOf (hslen ▸ h4), lanesOf_blocksOf (hulen ▸ h4)]

end Sys2Proof.Machine
end
